-- ==== Sys2Proof/Word.lean ====
section
/-!
DEFINITION. Sys2Proof/Word.lean: the word types of the spec (04 R102, 14 R400) and the sparse map used for
every large array of the machine.
-/
namespace Sys2Proof

/-- One byte of a frame, a record or a memory. -/
abbrev Byte := BitVec 8

/-- A 32-bit register or instruction word of a Marrow core (14 R400, 15 R436). -/
abbrev Word := BitVec 32

/-- Sparse data by key: (key, value) pairs, keys strictly rising, no value equal to what an unlisted key reads as. -/
abbrev AMap (α : Type) := List (Nat × α)

/-- Bytes given by their numbers, for literals. -/
def bytes (l : List Nat) : List Byte := l.map (BitVec.ofNat 8)

end Sys2Proof
end

