-- ==== Sys2Proof/Machine/Num.lean ====
section
/-!
DEFINITION. Sys2Proof/Machine/Num.lean: the shared pseudocode helpers of 03 R95-R99 (exact integers, casts,
rounding, saturation, rotation, byte order, the two CRCs) and reads and writes of sparse maps.
-/
namespace Sys2Proof.Machine

/-- `(iN)x` (R96): the N-bit two's-complement value congruent to x. -/
def wrapS (n : Nat) (x : Int) : Int :=
  let m := x % (2 ^ n : Nat)
  if 2 * m < (2 ^ n : Nat) then m else m - (2 ^ n : Nat)

/-- `(uN)x` (R96). -/
def wrapU (n : Nat) (x : Int) : Nat := (x % (2 ^ n : Nat)).toNat

/-- The signed reading of an n-bit field. -/
def sgn (n v : Nat) : Int := wrapS n v

/-- `rnd_conv(x, n)` (R97): to nearest, ties to even. -/
def rndConv (x : Int) (n : Nat) : Int :=
  let p : Int := (2 ^ n : Nat)
  let q := x / p
  let r := x - q * p
  if n = 0 then x
  else if 2 * r > p ∨ (2 * r = p ∧ q % 2 = 1) then q + 1 else q

/-- `sat(x, w)` (R98). -/
def sat (x : Int) (w : Nat) : Int :=
  let h : Int := (2 ^ (w - 1) : Nat)
  if x < -h then -h else if x > h - 1 then h - 1 else x

/-- `satu(x, w)` (R98). -/
def satu (x : Int) (w : Nat) : Int :=
  let h : Int := (2 ^ w : Nat)
  if x < 0 then 0 else if x > h - 1 then h - 1 else x

/-- x held between lo and hi. -/
def clampI (lo hi x : Int) : Int := if x < lo then lo else if x > hi then hi else x

/-- `rotl64(x, n)` (R99). -/
def rotl64 (x n : Nat) : Nat := (x * 2 ^ n) % 2 ^ 64 ||| (x % 2 ^ 64) / 2 ^ (64 - n)

/-- The n little-endian bytes of v (R99, R102). -/
def toLE : Nat → Nat → List Byte
  | 0, _ => []
  | n + 1, v => BitVec.ofNat 8 v :: toLE n (v / 256)

/-- The number that little-endian bytes spell. -/
def fromLE : List Byte → Nat
  | [] => 0
  | b :: r => b.toNat + 256 * fromLE r

/-- One bit step of a reflected CRC register. -/
def crcBit (poly c : Nat) : Nat := if c % 2 = 1 then (c / 2) ^^^ poly else c / 2

/-- n bit steps. -/
def crcBits (poly : Nat) : Nat → Nat → Nat
  | 0, c => c
  | n + 1, c => crcBits poly n (crcBit poly c)

/-- The register after a byte string. -/
def crcRun (poly : Nat) : Nat → List Byte → Nat
  | c, [] => c
  | c, b :: r => crcRun poly (crcBits poly 8 (c ^^^ b.toNat)) r

/-- `crc32` of R99: polynomial 0x04C11DB7 processed reflected. -/
def crc32 (l : List Byte) : Nat := crcRun 0xEDB88320 0xFFFFFFFF l ^^^ 0xFFFFFFFF

/-- `crc32c` of R99: polynomial 0x1EDC6F41 processed reflected. -/
def crc32c (l : List Byte) : Nat := crcRun 0x82F63B78 0xFFFFFFFF l ^^^ 0xFFFFFFFF

/-- Bits [hi:lo] of v. -/
def bitsOf (v hi lo : Nat) : Nat := (v / 2 ^ lo) % 2 ^ (hi + 1 - lo)

/-- Bit i of v. -/
def bitOf (v i : Nat) : Bool := (v / 2 ^ i) % 2 = 1

/-- 1 for true. -/
def b2n (b : Bool) : Nat := if b then 1 else 0

/-- `ceil(a / b)` for a positive b. -/
def ceilDiv (a b : Nat) : Nat := (a + b - 1) / b

/-- `round(a / b)` for a positive b, halves upward. -/
def roundDiv (a b : Nat) : Nat := (2 * a + b) / (2 * b)

/-- Floor of the square root, by bits: the result has at most n bits. -/
def isqrtAux : Nat → Nat → Nat → Nat
  | 0, _, r => r
  | n + 1, x, r => let r' := r + 2 ^ n; isqrtAux n x (if r' * r' ≤ x then r' else r)

/-- Floor of the square root of x < 2^64. -/
def isqrt (x : Nat) : Nat := isqrtAux 32 x 0

/-- The value at key k; an unlisted key reads as d. DESIGN CHOICE: log entry 8. -/
def mget {α : Type} (d : α) : AMap α → Nat → α
  | [], _ => d
  | (k, v) :: r, a => if a = k then v else mget d r a

/-- Remove key a. -/
def mdel {α : Type} : AMap α → Nat → AMap α
  | [], _ => []
  | (k, v) :: r, a => if a = k then mdel r a else (k, v) :: mdel r a

/-- Put v at key a, in key order. -/
def mins {α : Type} : AMap α → Nat → α → AMap α
  | [], a, w => [(a, w)]
  | (k, v) :: r, a, w =>
    if a = k then (a, w) :: r else if a < k then (a, w) :: (k, v) :: r else (k, v) :: mins r a w

/-- Write v at key a; writing what an unlisted key reads as removes the entry, so equal maps are equal data. -/
def mput {α : Type} [DecidableEq α] (d : α) (m : AMap α) (a : Nat) (v : α) : AMap α :=
  if v = d then mdel m a else mins m a v

/-- Change the value at key a. -/
def mmod {α : Type} [DecidableEq α] (d : α) (m : AMap α) (a : Nat) (f : α → α) : AMap α :=
  mput d m a (f (mget d m a))

/-- Every key of m is above a. -/
def mabove {α : Type} (a : Nat) : AMap α → Bool
  | [] => true
  | (k, _) :: _ => a < k

/-- The canonical form: keys strictly rising and no value d. -/
def mwf {α : Type} [DecidableEq α] (d : α) : AMap α → Bool
  | [] => true
  | (k, v) :: r => mabove k r && decide (v ≠ d) && mwf d r

/-- Bytes [a, a + n) of a byte map whose unlisted bytes read 0. -/
def mread (m : AMap Byte) (a : Nat) : Nat → List Byte
  | 0 => []
  | n + 1 => mget 0#8 m a :: mread m (a + 1) n

/-- Store bytes from address a upward. -/
def mwrite (m : AMap Byte) (a : Nat) : List Byte → AMap Byte
  | [] => m
  | b :: r => mwrite (mput 0#8 m a b) (a + 1) r

/-- Apply f for each i in start, start+1, …, start+n−1. -/
def forN {α : Type} (f : Nat → α → α) : Nat → Nat → α → α
  | 0, _, x => x
  | n + 1, i, x => forN f n (i + 1) (f i x)

/-- The list [start, …, start+n−1]. -/
def rangeFrom (start : Nat) : Nat → List Nat
  | 0 => []
  | n + 1 => start :: rangeFrom (start + 1) n

/-- Element i of a list, d outside it. -/
def nth {α : Type} (d : α) : List α → Nat → α
  | [], _ => d
  | x :: _, 0 => x
  | _ :: r, n + 1 => nth d r n

/-- The list with element i replaced. -/
def setNth {α : Type} : List α → Nat → α → List α
  | [], _, _ => []
  | _ :: r, 0, y => y :: r
  | x :: r, n + 1, y => x :: setNth r n y

/-- Insert by a strict order: after every element that does not come after x. -/
def insertBy {α : Type} (lt : α → α → Bool) (x : α) : List α → List α
  | [] => [x]
  | y :: r => if lt x y then x :: y :: r else y :: insertBy lt x r

/-- Stable sort by a strict order. -/
def sortBy {α : Type} (lt : α → α → Bool) (l : List α) : List α := l.foldl (fun acc x => insertBy lt x acc) []

/-- The first element that no other element comes before. -/
def bestBy {α : Type} (lt : α → α → Bool) : List α → Option α
  | [] => none
  | x :: r => match bestBy lt r with
    | none => some x
    | some y => if lt y x then some y else some x

end Sys2Proof.Machine
end

