-- ==== Sys2Proof/Machine/Dict.lean ====
section
/-!
DEFINITION. Sys2Proof/Machine/Dict.lean: the object dictionary (04 R100-R105, 05 R149-R154): one row for every
object of the spec's object tables, with its type, access code, default and range, and the look-up over them.
Sub-index 0x00 of an existing index is the CO object of R101 and has no row: `highestSub` computes it.
-/
namespace Sys2Proof.Machine

/-- Types of 04 R102; `dom n` a byte block of fixed length n (0: as the instance gives), `str n` at most n bytes. -/
inductive Ty | b1 | u8 | u16 | u32 | u64 | i16 | i32 | i64 | str (n : Nat) | dom (n : Nat)
deriving DecidableEq, Repr

/-- Access codes of 04 R104. -/
inductive Acc | ro | rw | rs | wo | rc | co
deriving DecidableEq, Repr

/-- Defaults: a constant, the instance number, one value for instance 0 and another for the rest, values by
position among the repeated sub-indices, or the mode default of 16 R501. -/
inductive Dflt | c (n : Nat) | inst | firstElse (a b : Nat) | perSub (l : List Nat) (rest : Nat) | cntMode
deriving DecidableEq, Repr

/-- Range columns (04 R103, R738). -/
inductive Rng
  | any | rg (lo hi : Int) | set (l : List Nat) | rgOr (x lo hi : Nat) | mask (m : Nat) | hilo
  | stream (m : Nat) | mult (k lo hi : Nat) | pow2 (zero : Bool) | srcCode | destCode | owner | wtDir | prescale | cntMode | period
deriving DecidableEq, Repr

/-- The window whose selector picks the instance of a field object (05 R152, R153; 09 R258; 10 R305; 16 R501). -/
inductive Win | none | thread | queue | region | counter | program | voice
deriving DecidableEq, Repr

/-- One object row: sub-index, its repeat step and count, type, access, default, range, window, and for the edit
window the byte offset inside its block of the record and the step between repeats (09 R255). -/
structure ObjDef where
  sub : Nat
  step : Nat
  count : Nat
  ty : Ty
  acc : Acc
  dflt : Dflt
  rng : Rng
  win : Win
  recOff : Nat
  recStep : Nat
deriving DecidableEq, Repr

/-- A family: base index, stride, instances, its block's place in the record (edit window), its rows. -/
structure Fam where
  base : Nat
  stride : Nat
  count : Nat
  recBase : Nat
  recStride : Nat
  objs : List ObjDef
deriving DecidableEq, Repr

def fam0000 : Fam := ⟨0x0000, 1, 1, 0, 0, [
  ⟨0x01, 1, 1, .u16, .co, (.c 21715), .any, .none, 0, 0⟩,  -- VENDOR_ID
  ⟨0x02, 1, 1, .u16, .co, (.c 33024), .any, .none, 0, 0⟩,  -- PART_ID
  ⟨0x03, 1, 1, .u8, .co, (.c 0), .any, .none, 0, 0⟩,  -- SILICON_REV
  ⟨0x04, 1, 1, .u8, .co, (.c 1), .any, .none, 0, 0⟩,  -- FW_MAJOR
  ⟨0x05, 1, 1, .u8, .co, (.c 0), .any, .none, 0, 0⟩,  -- FW_MINOR
  ⟨0x06, 1, 1, .u8, .co, (.c 0), .any, .none, 0, 0⟩,  -- FW_PATCH
  ⟨0x07, 1, 1, .u64, .co, (.c 0), .any, .none, 0, 0⟩,  -- UNIQUE_ID
  ⟨0x08, 1, 1, .u32, .co, (.c 0), .any, .none, 0, 0⟩,  -- DICT_CRC
  ⟨0x09, 1, 1, (.str 56), .co, (.c 0), .any, .none, 0, 0⟩,  -- PART_NAME
  ⟨0x0A, 1, 1, (.str 56), .co, (.c 0), .any, .none, 0, 0⟩,  -- ORDER_CODE
  ⟨0x0B, 1, 1, (.str 56), .co, (.c 0), .any, .none, 0, 0⟩]⟩  -- VENDOR_NAME

def fam0010 : Fam := ⟨0x0010, 1, 1, 0, 0, [
  ⟨0x01, 1, 1, .u8, .ro, (.c 0), .any, .none, 0, 0⟩,  -- DEVICE_STATE
  ⟨0x02, 1, 1, .u32, .ro, (.c 0), .any, .none, 0, 0⟩,  -- STATUS
  ⟨0x03, 1, 1, .u64, .ro, (.c 0), .any, .none, 0, 0⟩,  -- UPTIME_MS
  ⟨0x04, 1, 1, .u8, .ro, (.c 0), .any, .none, 0, 0⟩,  -- RESET_CAUSE
  ⟨0x05, 1, 1, .u8, .ro, (.c 32), .any, .none, 0, 0⟩,  -- PODS_IN_SERVICE
  ⟨0x06, 1, 1, .u8, .ro, (.c 16), .any, .none, 0, 0⟩,  -- CORES_IN_SERVICE
  ⟨0x07, 1, 1, .u16, .ro, (.c 1024), .any, .none, 0, 0⟩]⟩  -- VOICE_CAPACITY

def fam0020 : Fam := ⟨0x0020, 1, 1, 0, 0, [
  ⟨0x01, 1, 1, .u32, .ro, (.c 0), .any, .none, 0, 0⟩,  -- ACTIVE_VERSION
  ⟨0x02, 1, 1, .u32, .ro, (.c 0), .any, .none, 0, 0⟩,  -- PREVIOUS_VERSION
  ⟨0x03, 1, 1, .b1, .ro, (.c 0), .any, .none, 0, 0⟩,  -- PREV_VALID
  ⟨0x04, 1, 1, .u32, .ro, (.c 0), .any, .none, 0, 0⟩,  -- STAGING_VERSION
  ⟨0x05, 1, 1, .u8, .ro, (.c 0), .any, .none, 0, 0⟩,  -- STAGE_STATE
  ⟨0x06, 1, 1, .u8, .ro, (.c 255), .any, .none, 0, 0⟩,  -- STAGE_OWNER
  ⟨0x07, 1, 1, .u64, .ro, (.c 0), .any, .none, 0, 0⟩]⟩  -- EFF_BOUNDARY

def fam0100 : Fam := ⟨0x0100, 1, 1, 0, 0, [
  ⟨0x01, 1, 1, .u64, .ro, (.c 0), .any, .none, 0, 0⟩,  -- OUTPUT_DIGEST
  ⟨0x02, 1, 1, .u64, .ro, (.c 0), .any, .none, 0, 0⟩,  -- DIGEST_BLOCK
  ⟨0x03, 1, 1, .u64, .rw, (.c 0), .any, .none, 0, 0⟩,  -- DIGEST_MARK
  ⟨0x04, 1, 1, .u64, .ro, (.c 0), .any, .none, 0, 0⟩,  -- DIGEST_AT_MARK
  ⟨0x05, 1, 1, .u8, .ro, (.c 0), .any, .none, 0, 0⟩]⟩  -- MARK_STATE

def fam0110 : Fam := ⟨0x0110, 1, 1, 0, 0, [
  ⟨0x01, 1, 1, .u32, .rc, (.c 0), .any, .none, 0, 0⟩,  -- LATE_EVENTS
  ⟨0x02, 1, 1, .u32, .rc, (.c 0), .any, .none, 0, 0⟩,  -- DEADLINE_MISSES
  ⟨0x03, 1, 1, .u32, .rc, (.c 0), .any, .none, 0, 0⟩,  -- STREAM_UNDERRUNS
  ⟨0x04, 1, 1, .u32, .rc, (.c 0), .any, .none, 0, 0⟩,  -- STAGING_OVERFLOWS
  ⟨0x05, 1, 1, .u32, .rc, (.c 0), .any, .none, 0, 0⟩,  -- WRITE_CLASHES
  ⟨0x06, 1, 1, .u32, .rc, (.c 0), .any, .none, 0, 0⟩,  -- UNDECLARED_ADDS
  ⟨0x07, 1, 1, .u8, .ro, (.c 0), .any, .none, 0, 0⟩,  -- VOID_CAUSE
  ⟨0x08, 1, 1, .u64, .ro, (.c 0), .any, .none, 0, 0⟩,  -- VOID_BLOCK
  ⟨0x09, 1, 1, .u8, .ro, (.c 0), .any, .none, 0, 0⟩]⟩  -- EXCLUDED_INPUTS

def fam0300 : Fam := ⟨0x0300, 1, 1, 0, 0, [
  ⟨0x01, 1, 1, .u32, .ro, (.c 0), .any, .none, 0, 0⟩,  -- FAULT_SEQ
  ⟨0x02, 1, 1, .u32, .ro, (.c 0), .any, .none, 0, 0⟩,  -- FAULT_OLDEST
  ⟨0x03, 1, 1, .u32, .rc, (.c 0), .any, .none, 0, 0⟩,  -- FAULT_OVERWRITTEN
  ⟨0x04, 1, 1, .b1, .wo, (.c 0), (.rg 1 1), .none, 0, 0⟩]⟩  -- FAULT_CLEAR

def fam0301 : Fam := ⟨0x0301, 1, 1, 0, 0, [
  ⟨0x01, 1, 1, (.dom 2048), .ro, (.c 0), .any, .none, 0, 0⟩]⟩  -- FAULT_LOG

def fam1000 : Fam := ⟨0x1000, 1, 8, 0, 0, [
  ⟨0x01, 1, 1, .u8, .rs, (.c 31), (.mask 0x1F), .none, 0, 0⟩,  -- RIGHTS
  ⟨0x02, 1, 1, .u8, .rs, .inst, (.rg (0) (7)), .none, 0, 0⟩,  -- RANK
  ⟨0x03, 1, 1, .u16, .rs, (.c 0), (.rg (0) (7680)), .none, 0, 0⟩,  -- WRITE_QUOTA
  ⟨0x04, 1, 1, .u8, .rs, (.c 16), (.rg (0) (255)), .none, 0, 0⟩,  -- PROTO_LIMIT
  ⟨0x05, 1, 1, .u8, .rs, (.c 0), (.rg (0) (1)), .none, 0, 0⟩,  -- FREEZE_NOTES
  ⟨0x06, 1, 1, .b1, .ro, (.c 0), .any, .none, 0, 0⟩,  -- FROZEN
  ⟨0x07, 1, 1, .u8, .ro, (.c 0), .any, .none, 0, 0⟩,  -- FREEZE_CAUSE
  ⟨0x08, 1, 1, .b1, .ro, (.c 0), .any, .none, 0, 0⟩,  -- UNFREEZE_REQ
  ⟨0x09, 1, 1, .u32, .rc, (.c 0), .any, .none, 0, 0⟩,  -- FREEZE_COUNT
  ⟨0x0A, 1, 1, .u32, .rc, (.c 0), .any, .none, 0, 0⟩,  -- PROTO_ERRORS
  ⟨0x0B, 1, 1, .u32, .rc, (.c 0), .any, .none, 0, 0⟩,  -- CRC_ERRORS
  ⟨0x0C, 1, 1, .u32, .rc, (.c 0), .any, .none, 0, 0⟩,  -- SUPERSEDED
  ⟨0x0D, 1, 1, .u32, .rc, (.c 0), .any, .none, 0, 0⟩,  -- EVENTS_DROPPED
  ⟨0x0E, 1, 1, .u32, .rc, (.c 0), .any, .none, 0, 0⟩,  -- NOTIFY_COALESCED
  ⟨0x0F, 1, 1, .u8, .ro, (.c 0), .any, .none, 0, 0⟩,  -- SUBSCRIPTIONS
  ⟨0x10, 1, 1, .u32, .rc, (.c 0), .any, .none, 0, 0⟩]⟩  -- RETRANSMITS

def fam1020 : Fam := ⟨0x1020, 1, 1, 0, 0, [
  ⟨0x01, 1, 20, .u8, .ro, (.c 0), .any, .none, 0, 0⟩]⟩  -- CORE_FREEZE

def fam1100 : Fam := ⟨0x1100, 16, 4, 0, 0, [
  ⟨0x01, 1, 1, .b1, .rs, (.c 1), (.rg 0 1), .none, 0, 0⟩,  -- PORT_ENABLE
  ⟨0x02, 1, 1, .u8, .rs, (.c 0), (.rg (0) (1)), .none, 0, 0⟩,  -- MODE
  ⟨0x03, 1, 1, .u8, .rs, (.c 0), (.rg (0) (7)), .none, 0, 0⟩,  -- NODE
  ⟨0x04, 1, 1, .u8, .rs, (.c 2), (.rg (2) (8)), .none, 0, 0⟩,  -- CHAIN_NODES
  ⟨0x05, 1, 1, .u8, .rs, (.c 2), (.set [1, 2]), .none, 0, 0⟩,  -- LANES_CFG
  ⟨0x06, 1, 1, .u8, .rs, (.c 2), (.rg (0) (3)), .none, 0, 0⟩,  -- TX_SWING
  ⟨0x07, 1, 1, .u8, .rs, (.c 1), (.rg (0) (3)), .none, 0, 0⟩,  -- TX_DEEMPH
  ⟨0x08, 1, 1, (.dom 1920), .rs, (.c 0), .any, .none, 0, 0⟩,  -- SLOT_MAP
  ⟨0x09, 1, 1, .u8, .ro, (.c 0), .any, .none, 0, 0⟩,  -- LINK_STATE
  ⟨0x0A, 1, 1, .u8, .ro, (.c 0), .any, .none, 0, 0⟩,  -- RX_LANES
  ⟨0x0B, 1, 1, .u32, .ro, (.c 0), .any, .none, 0, 0⟩,  -- PATH_DELAY
  ⟨0x0C, 1, 1, .u32, .ro, (.c 0), .any, .none, 0, 0⟩,  -- CYCLE_NOW
  ⟨0x0D, 1, 1, .u32, .rc, (.c 0), .any, .none, 0, 0⟩,  -- LINK_DOWNS
  ⟨0x0E, 1, 1, .u32, .rc, (.c 0), .any, .none, 0, 0⟩,  -- LANE_FAILS
  ⟨0x0F, 1, 1, .u32, .rc, (.c 0), .any, .none, 0, 0⟩,  -- CODE_ERRORS
  ⟨0x10, 1, 1, .u32, .rc, (.c 0), .any, .none, 0, 0⟩,  -- GUARD_DISCARDS
  ⟨0x11, 1, 1, .u32, .rc, (.c 0), .any, .none, 0, 0⟩,  -- EDGE_LANDINGS
  ⟨0x12, 1, 1, .u32, .rc, (.c 0), .any, .none, 0, 0⟩,  -- TX_SKIPPED
  ⟨0x13, 1, 1, .u32, .rc, (.c 0), .any, .none, 0, 0⟩,  -- CREDIT_OVERRUNS
  ⟨0x14, 1, 1, .u32, .rc, (.c 0), .any, .none, 0, 0⟩,  -- CREDIT_WAITS
  ⟨0x15, 1, 1, .u32, .rc, (.c 0), .any, .none, 0, 0⟩,  -- RESENT
  ⟨0x16, 1, 1, .u32, .rc, (.c 0), .any, .none, 0, 0⟩,  -- ISO_OUT_DROPS
  ⟨0x17, 1, 1, .u32, .rc, (.c 0), .any, .none, 0, 0⟩,  -- ISO_IN_LOST
  ⟨0x18, 1, 3, .u16, .rs, (.c 65535), (.rgOr 0xFFFF 768 2047), .none, 0, 0⟩,  -- DATA_RING
  ⟨0x1B, 1, 1, .u32, .rc, (.c 0), .any, .none, 0, 0⟩,  -- FRAME_CRC_ERRORS
  ⟨0x1C, 1, 1, .u8, .ro, (.c 0), .any, .none, 0, 0⟩,  -- MSG_CREDIT_ADV
  ⟨0x20, 1, 16, .u32, .rs, (.c 0), (.stream 0x9F3F), .none, 0, 0⟩,  -- OSTREAM
  ⟨0x30, 1, 16, .u32, .rs, (.c 0), (.stream 0x7FFF9F3F), .none, 0, 0⟩,  -- ISTREAM
  ⟨0x40, 1, 64, .u8, .rs, (.c 255), (.rgOr 255 0 127), .none, 0, 0⟩]⟩  -- OUT_SRC

def fam1140 : Fam := ⟨0x1140, 1, 32, 0, 0, [
  ⟨0x01, 1, 1, .u8, .ro, (.c 0), .any, .none, 0, 0⟩,  -- NODE_STATE
  ⟨0x02, 1, 1, .u8, .ro, (.c 0), .any, .none, 0, 0⟩,  -- EDGE_CYCLES
  ⟨0x03, 1, 1, .u32, .rc, (.c 0), .any, .none, 0, 0⟩,  -- NODE_EDGE
  ⟨0x04, 1, 1, .u32, .rc, (.c 0), .any, .none, 0, 0⟩,  -- NODE_DISCARDS
  ⟨0x05, 1, 1, .b1, .wo, (.c 0), (.rg 1 1), .none, 0, 0⟩,  -- REJOIN
  ⟨0x06, 1, 1, .u32, .rc, (.c 0), .any, .none, 0, 0⟩]⟩  -- NODE_DROPS

def fam2000 : Fam := ⟨0x2000, 1, 1, 0, 0, [
  ⟨0x01, 1, 1, .b1, .rw, (.c 0), (.rg 0 1), .none, 0, 0⟩,  -- MEDIA_RUN
  ⟨0x02, 1, 1, .u8, .ro, (.c 0), .any, .none, 0, 0⟩,  -- MEDIA_STATE
  ⟨0x03, 1, 1, .u32, .ro, (.c 0), .any, .none, 0, 0⟩,  -- MEDIA_EPOCH
  ⟨0x04, 1, 1, .u64, .ro, (.c 0), .any, .none, 0, 0⟩,  -- SIX_NOW
  ⟨0x05, 1, 1, .u64, .ro, (.c 0), .any, .none, 0, 0⟩,  -- BLOCK_NOW
  ⟨0x06, 1, 1, .u32, .rc, (.c 0), .any, .none, 0, 0⟩]⟩  -- EVENTS_DISCARDED

def fam2010 : Fam := ⟨0x2010, 1, 1, 0, 0, [
  ⟨0x01, 1, 1, .u8, .rs, (.c 1), (.rg (0) (5)), .none, 0, 0⟩,  -- ENGINE_RATE
  ⟨0x02, 1, 1, .u8, .rs, (.c 0), (.rg (0) (6)), .none, 0, 0⟩,  -- MEDIA_SRC
  ⟨0x03, 1, 1, .u8, .rs, (.c 1), (.set [1, 2, 4]), .none, 0, 0⟩,  -- WCLK_DIV
  ⟨0x04, 1, 1, .u8, .rs, (.c 16), (.set [8, 16, 32, 64]), .none, 0, 0⟩,  -- BLOCK_LEN
  ⟨0x05, 1, 1, .b1, .rs, (.c 1), (.rg 0 1), .none, 0, 0⟩,  -- REF_FALLBACK
  ⟨0x06, 1, 1, .b1, .wo, (.c 0), (.rg 1 1), .none, 0, 0⟩,  -- REF_RESELECT
  ⟨0x07, 1, 1, .u8, .rs, (.c 0), (.rg (0) (4)), .none, 0, 0⟩,  -- TIME_MASTER
  ⟨0x08, 1, 1, .u16, .rs, (.c 0), (.rgOr 0 24 4096), .none, 0, 0⟩,  -- UNTIMED_DELAY
  ⟨0x09, 1, 1, .i32, .rs, (.c 0), (.rg (-65536) (65536)), .none, 0, 0⟩]⟩  -- SIX_OFFSET

def fam2020 : Fam := ⟨0x2020, 1, 1, 0, 0, [
  ⟨0x01, 1, 1, .u64, .ro, (.c 0), .any, .none, 0, 0⟩,  -- LINK_TIME_NOW
  ⟨0x02, 1, 1, .u64, .ro, (.c 0), .any, .none, 0, 0⟩,  -- ANCHOR_T
  ⟨0x03, 1, 1, .u64, .ro, (.c 0), .any, .none, 0, 0⟩,  -- ANCHOR_SIX
  ⟨0x04, 1, 1, .u16, .ro, (.c 0), .any, .none, 0, 0⟩,  -- ANCHOR_FRAC
  ⟨0x05, 1, 1, .u64, .ro, (.c 0x3254E6E221C8A), .any, .none, 0, 0⟩,  -- RATE
  ⟨0x06, 1, 1, .u32, .rc, (.c 0), .any, .none, 0, 0⟩,  -- TIME_STEPS
  ⟨0x07, 1, 1, .u32, .rc, (.c 0), .any, .none, 0, 0⟩,  -- TIME_DISC
  ⟨0x08, 1, 1, .i64, .ro, (.c 0), .any, .none, 0, 0⟩,  -- LAST_STEP
  ⟨0x09, 1, 1, .u32, .rc, (.c 0), .any, .none, 0, 0⟩,  -- REF_LOSSES
  ⟨0x0A, 1, 1, .b1, .ro, (.c 0), .any, .none, 0, 0⟩,  -- MEDIA_LOCK
  ⟨0x0B, 1, 1, .u8, .ro, (.c 0), .any, .none, 0, 0⟩,  -- SRC_ACTIVE
  ⟨0x0C, 1, 1, .u64, .wo, (.c 0), .any, .none, 0, 0⟩,  -- LINK_TIME_SET
  ⟨0x0D, 1, 1, .b1, .ro, (.c 0), .any, .none, 0, 0⟩]⟩  -- TIME_HOLDOVER

def fam2030 : Fam := ⟨0x2030, 1, 1, 0, 0, [
  ⟨0x01, 1, 1, .u16, .ro, (.c 41), .any, .none, 0, 0⟩,  -- LATENCY_SAMPLES
  ⟨0x02, 1, 1, .u32, .ro, (.c 0xC49BA), .any, .none, 0, 0⟩,  -- HORIZON_SAMPLES
  ⟨0x03, 1, 1, .u32, .ro, (.c 0x51615), .any, .none, 0, 0⟩]⟩  -- BLOCK_PERIOD_NS

def fam2040 : Fam := ⟨0x2040, 1, 1, 0, 0, [
  ⟨0x01, 1, 1, .i16, .ro, (.c 32767), .any, .none, 0, 0⟩,  -- SLACK_WORST
  ⟨0x02, 1, 1, .u8, .ro, (.c 0), .any, .none, 0, 0⟩,  -- SLACK_WORST_UNIT
  ⟨0x03, 1, 1, .i16, .rc, (.c 32767), .any, .none, 0, 0⟩,  -- SLACK_MIN_HELD
  ⟨0x04, 1, 1, .u32, .rc, (.c 0), .any, .none, 0, 0⟩]⟩  -- OVERRUNS

def fam2050 : Fam := ⟨0x2050, 1, 1, 0, 0, [
  ⟨0x01, 1, 36, .i16, .ro, (.c 32767), .any, .none, 0, 0⟩]⟩  -- POD_SLACK

def fam2051 : Fam := ⟨0x2051, 1, 1, 0, 0, [
  ⟨0x01, 1, 20, .i16, .ro, (.c 32767), .any, .none, 0, 0⟩]⟩  -- CORE_SLACK

def fam3000 : Fam := ⟨0x3000, 1, 256, 0, 0, [
  ⟨0x01, 1, 1, .b1, .rs, (.c 0), (.rg 0 1), .none, 0, 0⟩,  -- ENABLE
  ⟨0x02, 1, 1, .u16, .rs, (.c 0), (.rg (0) (2047)), .none, 0, 0⟩,  -- PROGRAM
  ⟨0x03, 1, 1, .u8, .rs, (.c 255), .any, .none, 0, 0⟩,  -- RX_PORTS
  ⟨0x04, 1, 1, .u8, .rs, (.c 0), (.rgOr 255 0 15), .none, 0, 0⟩,  -- RX_GROUP
  ⟨0x05, 1, 1, .u8, .rs, (.c 0), (.rgOr 255 0 15), .none, 0, 0⟩,  -- RX_CHANNEL
  ⟨0x06, 1, 1, .u16, .rs, (.c 32512), .hilo, .none, 0, 0⟩,  -- KEY_RANGE
  ⟨0x07, 1, 1, .u16, .rs, (.c 32512), .hilo, .none, 0, 0⟩,  -- VEL_RANGE
  ⟨0x08, 1, 1, .i16, .rs, (.c 0), (.rg (-48) (48)), .none, 0, 0⟩,  -- TRANSPOSE
  ⟨0x09, 1, 1, .u8, .rs, (.c 255), (.rgOr 255 0 63), .none, 0, 0⟩,  -- TUNING
  ⟨0x0A, 1, 1, .i32, .rs, (.c 0), (.rg (-6553600) (6553600)), .none, 0, 0⟩,  -- TUNE_FINE
  ⟨0x0B, 1, 1, .u32, .rs, (.c 0xC80000), (.rg (0) (314572800)), .none, 0, 0⟩,  -- BEND_RANGE
  ⟨0x0C, 1, 1, .u32, .rs, (.c 0x12C00000), (.rg (0) (314572800)), .none, 0, 0⟩,  -- NOTE_BEND_RANGE
  ⟨0x0D, 1, 1, .u16, .rs, (.c 1152), (.rg (1) (1152)), .none, 0, 0⟩,  -- POLY_LIMIT
  ⟨0x0E, 1, 1, .u16, .rs, (.c 0), (.rg (0) (1152)), .none, 0, 0⟩,  -- RESERVED
  ⟨0x0F, 1, 1, .u8, .rs, (.c 0), (.rg (0) (7)), .none, 0, 0⟩,  -- PRIORITY
  ⟨0x10, 1, 1, .u8, .rs, (.c 0), (.rg (0) (3)), .none, 0, 0⟩,  -- STEAL_POLICY
  ⟨0x11, 1, 1, .u8, .rs, (.c 0), (.rg (0) (2)), .none, 0, 0⟩,  -- VOICE_MODE
  ⟨0x12, 1, 1, .u8, .rs, (.c 0), (.rg (0) (2)), .none, 0, 0⟩,  -- MONO_PRIORITY
  ⟨0x13, 1, 1, .u8, .rs, (.c 0), (.rg (0) (2)), .none, 0, 0⟩,  -- PORTA_MODE
  ⟨0x14, 1, 1, .u32, .rs, (.c 0), (.rg (0) (16777215)), .none, 0, 0⟩,  -- PORTA_TIME
  ⟨0x15, 1, 1, .u8, .rs, (.c 0), (.rg (0) (63)), .none, 0, 0⟩,  -- OUT_BUS
  ⟨0x16, 1, 1, .b1, .rs, (.c 1), (.rg 0 1), .none, 0, 0⟩,  -- SUSTAIN_ENABLE
  ⟨0x17, 1, 1, .b1, .rs, (.c 0), (.rg 0 1), .none, 0, 0⟩,  -- PC_ENABLE
  ⟨0x18, 1, 1, .u8, .rs, (.c 0), (.rg (0) (2)), .none, 0, 0⟩,  -- MPE_ZONE
  ⟨0x19, 1, 1, .u8, .rs, (.c 15), (.rg (1) (15)), .none, 0, 0⟩,  -- MPE_MEMBERS
  ⟨0x1A, 1, 1, .u16, .rs, (.c 32842), (.mask 0x80FF), .none, 0, 0⟩,  -- PNC1_SRC
  ⟨0x1B, 1, 1, .u16, .rs, (.c 32839), (.mask 0x80FF), .none, 0, 0⟩,  -- PNC2_SRC
  ⟨0x1C, 1, 1, .u16, .rs, (.c 1), (.mask 0x80FF), .none, 0, 0⟩,  -- PNC3_SRC
  ⟨0x1D, 1, 1, .u16, .rs, (.c 2), (.mask 0x80FF), .none, 0, 0⟩,  -- PNC4_SRC
  ⟨0x1E, 1, 1, .u16, .ro, (.c 0), .any, .none, 0, 0⟩,  -- CUR_PROGRAM
  ⟨0x1F, 1, 1, .u16, .ro, (.c 0), .any, .none, 0, 0⟩,  -- VOICES
  ⟨0x20, 1, 1, .u8, .ro, (.c 0), .any, .none, 0, 0⟩]⟩  -- HELD

def fam3400 : Fam := ⟨0x3400, 1, 256, 0, 0, [
  ⟨0x01, 16, 8, .u8, .rs, (.c 0), (.rg (0) (5)), .none, 0, 0⟩,  -- PLFO_SHAPE
  ⟨0x02, 16, 8, .u32, .rs, (.c 0x10000), (.rg (0) (65536000)), .none, 0, 0⟩,  -- PLFO_RATE
  ⟨0x03, 16, 8, .u32, .rs, (.c 0), .any, .none, 0, 0⟩,  -- PLFO_START_PHASE
  ⟨0x04, 16, 8, .u8, .rs, (.c 0), (.rg (0) (2)), .none, 0, 0⟩,  -- PLFO_SYNC
  ⟨0x05, 16, 8, .u8, .rs, (.c 0), (.rg (0) (1)), .none, 0, 0⟩,  -- PLFO_POLARITY
  ⟨0x81, 1, 120, .u32, .ro, (.c 0), .any, .none, 0, 0⟩,  -- CC
  ⟨0xF9, 1, 1, .u32, .ro, (.c 0), .any, .none, 0, 0⟩,  -- CHAN_PRESSURE
  ⟨0xFA, 1, 1, .u32, .ro, (.c 0x80000000), .any, .none, 0, 0⟩]⟩  -- PITCH_BEND

def fam3800 : Fam := ⟨0x3800, 1, 64, 0, 0, [
  ⟨0x01, 1, 128, .i32, .rs, (.c 0), (.rg (-78643200) (78643200)), .none, 0, 0⟩]⟩  -- TUNE_ENTRY

def fam4000 : Fam := ⟨0x4000, 1, 2048, 0, 0, [
  ⟨0x01, 1, 1, (.dom 2048), .rs, (.c 0), .any, .none, 0, 0⟩]⟩  -- RECORD

def fam4800 : Fam := ⟨0x4800, 1, 1, 0, 0, [
  ⟨0x01, 1, 1, .u16, .rw, (.c 0), (.rg (0) (2047)), .none, 0, 0⟩]⟩  -- EDIT_PROGRAM

def fam4810 : Fam := ⟨0x4810, 1, 4, 32, 284, [
  ⟨0x01, 1, 1, .u8, .rs, (.firstElse 1 0), (.rg (0) (5)), .program, 0, 0⟩,  -- MODE
  ⟨0x02, 1, 1, .u8, .rs, (.c 0), (.rg (0) (3)), .program, 1, 0⟩,  -- WAVE
  ⟨0x03, 1, 1, .i16, .rs, (.c 0), (.rg (-48) (48)), .program, 2, 0⟩,  -- COARSE
  ⟨0x04, 1, 1, .i32, .rs, (.c 0), (.rg (-6553600) (6553600)), .program, 4, 0⟩,  -- FINE
  ⟨0x05, 1, 1, .b1, .rs, (.c 1), (.rg 0 1), .program, 8, 0⟩,  -- KEYTRACK
  ⟨0x06, 1, 1, .i32, .rs, (.c 0x7FFFFFFF), (.rg (0) (2147483647)), .program, 9, 0⟩,  -- LEVEL
  ⟨0x07, 1, 1, .b1, .rs, (.c 0), (.rg 0 1), .program, 13, 0⟩,  -- FREE_RUN
  ⟨0x08, 1, 1, .u32, .rs, (.c 0), .any, .program, 14, 0⟩,  -- START_PHASE
  ⟨0x09, 1, 1, .i32, .rs, (.c 0x40000000), (.rg (42949673) (2104533975)), .program, 18, 0⟩,  -- PW
  ⟨0x0A, 1, 1, .u32, .rs, (.c 0), (.rg (0) (2147483648)), .program, 22, 0⟩,  -- PM_A
  ⟨0x0B, 1, 1, .u32, .rs, (.c 0), (.rg (0) (0x80000000)), .program, 26, 0⟩,  -- PM_B
  ⟨0x0C, 1, 1, .u32, .rs, (.c 0), (.rg (0) (0x80000000)), .program, 30, 0⟩,  -- PM_C
  ⟨0x0D, 1, 1, .u32, .rs, (.c 0), (.rg (0) (268435456)), .program, 34, 0⟩,  -- FEEDBACK
  ⟨0x0E, 1, 1, .u8, .rs, (.c 0), (.rg (0) (63)), .program, 38, 0⟩,  -- WT_ID
  ⟨0x0F, 1, 1, .u32, .rs, (.c 0), (.rg (0) (16711680)), .program, 39, 0⟩,  -- WT_POS
  ⟨0x10, 1, 1, .u8, .rs, (.c 1), (.rg (0) (1)), .program, 43, 0⟩,  -- INTERP
  ⟨0x11, 1, 1, .u8, .rs, (.c 1), (.rg (0) (3)), .program, 44, 0⟩,  -- LOOP_MODE
  ⟨0x12, 1, 1, .b1, .rs, (.c 0), (.rg 0 1), .program, 45, 0⟩,  -- LOOP_RELEASE
  ⟨0x13, 1, 1, .u16, .rs, (.c 0), (.rg (0) (16384)), .program, 46, 0⟩,  -- XFADE
  ⟨0x14, 1, 1, .u32, .rs, (.c 0), .any, .program, 48, 0⟩,  -- START_OFS
  ⟨0x15, 1, 1, .u8, .rs, (.c 0), (.rg (0) (16)), .program, 52, 0⟩,  -- ZONES
  ⟨0x16, 1, 1, .i32, .rs, (.c 0x10000000), (.rg (-2147483648) (2147483647)), .program, 53, 0⟩,  -- MIX_GAIN
  ⟨0x17, 1, 1, .u8, .rs, (.c 2), (.rg (0) (2)), .program, 57, 0⟩,  -- ROUTE
  ⟨0x40, 5, 16, .u16, .rs, (.c 32512), .hilo, .program, 60, 14⟩,  -- ZONE_KEYS
  ⟨0x41, 5, 16, .u16, .rs, (.c 32513), .hilo, .program, 62, 14⟩,  -- ZONE_VELS
  ⟨0x42, 5, 16, .u16, .rs, (.c 0), (.rg (0) (65535)), .program, 64, 14⟩,  -- ZONE_REGION
  ⟨0x43, 5, 16, .i32, .rs, (.c 0), .any, .program, 66, 14⟩,  -- ZONE_ROOT
  ⟨0x44, 5, 16, .u32, .rs, (.c 48000), (.rg (8000) (384000)), .program, 70, 14⟩]⟩  -- ZONE_RATE

def fam4820R : Fam := ⟨0x4820, 1, 1, 1168, 0, [
  ⟨0x08, 1, 1, .u8, .rs, (.c 0), (.rg (0) (2)), .program, 22, 0⟩]⟩  -- ROUTING

def fam4820 : Fam := ⟨0x4820, 1, 2, 1168, 24, [
  ⟨0x01, 1, 1, .u8, .rs, (.c 0), (.rg (0) (3)), .program, 0, 0⟩,  -- TYPE
  ⟨0x02, 1, 1, .u8, .rs, (.c 0), (.rg (0) (4)), .program, 1, 0⟩,  -- SUBTYPE
  ⟨0x03, 1, 1, .i32, .rs, (.c 0), (.rg (-471859200) (471859200)), .program, 2, 0⟩,  -- CUTOFF
  ⟨0x04, 1, 1, .i32, .rs, (.c 0), (.rg (-536870912) (536870912)), .program, 6, 0⟩,  -- KEYTRACK
  ⟨0x05, 1, 1, .i32, .rs, (.c 0), (.rg (0) (2147483647)), .program, 10, 0⟩,  -- RES
  ⟨0x06, 1, 1, .i32, .rs, (.c 0x10000000), (.rg (268435456) (2147483647)), .program, 14, 0⟩,  -- DRIVE
  ⟨0x07, 1, 1, .i32, .rs, (.c 0x10000000), (.rg (-2147483648) (2147483647)), .program, 18, 0⟩]⟩  -- OUT_GAIN

def fam4822 : Fam := ⟨0x4822, 1, 1, 1216, 0, [
  ⟨0x01, 1, 1, .u8, .rs, (.c 0), (.rg (0) (6)), .program, 0, 0⟩,  -- CURVE
  ⟨0x02, 1, 1, .i32, .rs, (.c 0x10000000), (.rg (268435456) (2147483647)), .program, 1, 0⟩,  -- DRIVE
  ⟨0x03, 1, 1, .i32, .rs, (.c 0x7FFFFFFF), (.rg (0) (2147483647)), .program, 5, 0⟩,  -- MIX
  ⟨0x04, 1, 1, .u8, .rs, (.c 0), (.rg (0) (63)), .program, 9, 0⟩]⟩  -- USER_CURVE

def fam4823 : Fam := ⟨0x4823, 1, 1, 1228, 0, [
  ⟨0x01, 1, 1, .i32, .rs, (.c 0x10000000), (.rg (0) (2147483647)), .program, 0, 0⟩,  -- LEVEL
  ⟨0x02, 1, 1, .i32, .rs, (.c 0), (.rg (-2147483648) (2147483647)), .program, 4, 0⟩,  -- PAN
  ⟨0x03, 1, 1, .u8, .rs, (.c 0), (.rg (0) (1)), .program, 8, 0⟩]⟩  -- PAN_LAW

def fam4830 : Fam := ⟨0x4830, 1, 6, 1240, 76, [
  ⟨0x01, 1, 1, .u8, .rs, (.c 3), (.rg (1) (8)), .program, 0, 0⟩,  -- NSEG
  ⟨0x02, 1, 1, .u8, .rs, (.c 1), (.rgOr 255 0 6), .program, 1, 0⟩,  -- SUS_SEG
  ⟨0x03, 1, 1, .u8, .rs, (.c 255), (.rgOr 255 0 7), .program, 2, 0⟩,  -- LOOP_START
  ⟨0x10, 3, 8, .u32, .rs, (.perSub [48, 4800, 9600] 0), (.rg (0) (16777215)), .program, 3, 9⟩,  -- TIME
  ⟨0x11, 3, 8, .i32, .rs, (.perSub [0x7FFFFFFF, 0x60000000] 0), (.rg (0) (2147483647)), .program, 7, 9⟩,  -- LEVEL
  ⟨0x12, 3, 8, .u8, .rs, (.perSub [0, 1, 1] 0), (.rg (0) (2)), .program, 11, 9⟩]⟩  -- CURVE

def fam4840 : Fam := ⟨0x4840, 1, 4, 1696, 20, [
  ⟨0x01, 1, 1, .u8, .rs, (.c 0), (.rg (0) (5)), .program, 0, 0⟩,  -- SHAPE
  ⟨0x02, 1, 1, .u32, .rs, (.c 0x50000), (.rg (0) (65536000)), .program, 1, 0⟩,  -- RATE
  ⟨0x03, 1, 1, .b1, .rs, (.c 0), (.rg 0 1), .program, 5, 0⟩,  -- FREE_RUN
  ⟨0x04, 1, 1, .u32, .rs, (.c 0), .any, .program, 6, 0⟩,  -- START_PHASE
  ⟨0x05, 1, 1, .u8, .rs, (.c 0), (.rg (0) (1)), .program, 10, 0⟩,  -- POLARITY
  ⟨0x06, 1, 1, .u32, .rs, (.c 0), (.rg (0) (16777215)), .program, 11, 0⟩,  -- DELAY
  ⟨0x07, 1, 1, .u32, .rs, (.c 0), (.rg (0) (16777215)), .program, 15, 0⟩]⟩  -- FADE

def fam4850 : Fam := ⟨0x4850, 1, 1, 1776, 0, [
  ⟨0x01, 4, 32, .u8, .rs, (.c 0), .srcCode, .program, 0, 7⟩,  -- SRC
  ⟨0x02, 4, 32, .u8, .rs, (.c 0), .destCode, .program, 1, 7⟩,  -- DEST
  ⟨0x03, 4, 32, .i32, .rs, (.c 0), .any, .program, 2, 7⟩,  -- AMOUNT
  ⟨0x04, 4, 32, .u8, .rs, (.c 0), .srcCode, .program, 6, 7⟩]⟩  -- VIA

def fam4860 : Fam := ⟨0x4860, 1, 1, 2000, 0, [
  ⟨0x01, 3, 4, .u8, .rs, (.perSub [1] 0), (.rg (0) (2)), .program, 0, 6⟩,  -- SEND_MODE
  ⟨0x02, 3, 4, .u8, .rs, (.perSub [255] 0), (.rgOr 255 0 127), .program, 1, 6⟩,  -- SEND_DEST
  ⟨0x03, 3, 4, .i32, .rs, (.perSub [268435456] 0), (.rg (-2147483648) (2147483647)), .program, 2, 6⟩]⟩  -- SEND_LEVEL

def fam4870 : Fam := ⟨0x4870, 1, 1, 0, 0, [
  ⟨0x01, 1, 1, (.str 16), .rs, (.c 0), (.rg (0) (16)), .program, 16, 0⟩,  -- NAME
  ⟨0x02, 1, 1, .u32, .rs, (.c 0), .any, .program, 4, 0⟩,  -- USER_TAG
  ⟨0x03, 1, 1, .u16, .ro, (.c 45), .any, .program, 0, 0⟩,  -- COST
  ⟨0x04, 1, 1, .u16, .ro, (.c 45), .any, .program, 0, 0⟩,  -- COST_STAGED
  ⟨0x05, 1, 1, .u8, .co, (.c 1), .any, .program, 0, 0⟩]⟩  -- FORMAT

def fam4C00 : Fam := ⟨0x4C00, 1, 1, 0, 0, [
  ⟨0x01, 1, 1, .u8, .rs, (.c 0), (.rg (0) (50)), .none, 0, 0⟩,  -- FADE_RESERVE
  ⟨0x02, 1, 1, .u8, .rs, (.c 16), (.rg (1) (64)), .none, 0, 0⟩,  -- MAX_WAIT
  ⟨0x03, 1, 1, .u32, .rc, (.c 0), .any, .none, 0, 0⟩,  -- NOTES_STARTED
  ⟨0x04, 1, 1, .u32, .rc, (.c 0), .any, .none, 0, 0⟩,  -- STEALS
  ⟨0x05, 1, 1, .u32, .rc, (.c 0), .any, .none, 0, 0⟩,  -- FORCED_STEALS
  ⟨0x06, 1, 1, .u32, .rc, (.c 0), .any, .none, 0, 0⟩,  -- WAITS
  ⟨0x07, 1, 1, .u32, .rc, (.c 0), .any, .none, 0, 0⟩,  -- NOTES_REFUSED
  ⟨0x08, 1, 1, .u32, .rc, (.c 0), .any, .none, 0, 0⟩,  -- CAPACITY_VOIDS
  ⟨0x09, 1, 1, .u16, .ro, (.c 0), .any, .none, 0, 0⟩,  -- VOICES_IN_SLOTS
  ⟨0x0A, 1, 1, .u16, .ro, (.c 0), .any, .none, 0, 0⟩,  -- VOICES_IN_LANES
  ⟨0x0B, 1, 1, .u32, .ro, (.c 0), .any, .none, 0, 0⟩,  -- SERIAL_LAST
  ⟨0x10, 1, 1, .u16, .rw, (.c 0), (.rg (0) (1151)), .none, 0, 0⟩,  -- VOICE_SEL
  ⟨0x11, 1, 1, .u8, .ro, (.c 0), .any, .voice, 0, 0⟩,  -- V_STATE
  ⟨0x12, 1, 1, .u8, .ro, (.c 0), .any, .voice, 0, 0⟩,  -- V_PART
  ⟨0x13, 1, 1, .u16, .ro, (.c 0), .any, .voice, 0, 0⟩,  -- V_PROGRAM
  ⟨0x14, 1, 1, .u16, .ro, (.c 0), .any, .voice, 0, 0⟩,  -- V_IDENT
  ⟨0x15, 1, 1, .u32, .ro, (.c 0), .any, .voice, 0, 0⟩,  -- V_SERIAL
  ⟨0x16, 1, 1, .u64, .ro, (.c 0), .any, .voice, 0, 0⟩,  -- V_START
  ⟨0x17, 1, 1, .i32, .ro, (.c 0), .any, .voice, 0, 0⟩]⟩  -- V_LEVEL

def fam4C10 : Fam := ⟨0x4C10, 1, 1, 0, 0, [
  ⟨0x01, 1, 1, .u16, .rs, (.c 64), (.rg (16) (1024)), .none, 0, 0⟩,  -- FADE_LEN
  ⟨0x02, 1, 1, .b1, .rs, (.c 0), (.rg 0 1), .none, 0, 0⟩,  -- CAPACITY_MODE
  ⟨0x03, 1, 1, .u8, .ro, (.c 32), .any, .none, 0, 0⟩,  -- POSITIONS_CONFIGURED
  ⟨0x04, 1, 1, .u8, .ro, (.c 32), .any, .none, 0, 0⟩,  -- POSITIONS
  ⟨0x05, 1, 1, .u16, .ro, (.c 12000), .any, .none, 0, 0⟩,  -- BUDGET
  ⟨0x06, 1, 1, .u16, .ro, (.c 12000), .any, .none, 0, 0⟩,  -- SLOT_LIMIT
  ⟨0x07, 1, 1, .u32, .rc, (.c 0), .any, .none, 0, 0⟩]⟩  -- VOICES_LOST

def fam4C40 : Fam := ⟨0x4C40, 1, 36, 0, 0, [
  ⟨0x01, 1, 1, .u8, .ro, (.c 0), .any, .none, 0, 0⟩,  -- POSITION
  ⟨0x02, 1, 1, .u16, .ro, (.c 0), .any, .none, 0, 0⟩,  -- SLOT_CHARGE
  ⟨0x03, 1, 1, .u16, .ro, (.c 0), .any, .none, 0, 0⟩,  -- LANE_CHARGE
  ⟨0x04, 1, 1, .u8, .ro, (.c 0), .any, .none, 0, 0⟩,  -- SLOTS_USED
  ⟨0x05, 1, 1, .u8, .ro, (.c 0), .any, .none, 0, 0⟩,  -- LANES_USED
  ⟨0x06, 1, 1, .u16, .rc, (.c 0), .any, .none, 0, 0⟩]⟩  -- CHARGE_PEAK

def fam5000 : Fam := ⟨0x5000, 32, 20, 0, 0, [
  ⟨0x01, 1, 1, .u8, .rs, (.c 0), (.rg (0) (1)), .none, 0, 0⟩,  -- ACTIVE_BANK
  ⟨0x02, 1, 1, .u8, .ro, (.c 0), .any, .none, 0, 0⟩,  -- FETCHING
  ⟨0x03, 1, 1, .u8, .ro, (.c 0), .any, .none, 0, 0⟩,  -- THREADS_BOUND
  ⟨0x04, 1, 1, .u32, .rc, (.c 0), .any, .none, 0, 0⟩,  -- DISPATCHES
  ⟨0x05, 1, 1, .u32, .rc, (.c 0), .any, .none, 0, 0⟩,  -- CONFLICTS
  ⟨0x06, 1, 1, .u32, .rc, (.c 0), .any, .none, 0, 0⟩,  -- UE_READS
  ⟨0x07, 1, 1, .u32, .ro, (.c 0), .any, .none, 0, 0⟩,  -- REFUSED_ADDR
  ⟨0x08, 1, 1, .u32, .rc, (.c 0), .any, .none, 0, 0⟩,  -- BANK_SWITCHES
  ⟨0x09, 1, 1, .u8, .ro, (.c 0), .any, .none, 0, 0⟩]⟩  -- REFUSED_KIND

def fam5001 : Fam := ⟨0x5001, 32, 20, 0, 0, [
  ⟨0x01, 1, 1, (.dom 32768), .rw, (.c 0), .any, .none, 0, 0⟩]⟩  -- PROG_A

def fam5002 : Fam := ⟨0x5002, 32, 20, 0, 0, [
  ⟨0x01, 1, 1, (.dom 32768), .rw, (.c 0), .any, .none, 0, 0⟩]⟩  -- PROG_B

def fam5003 : Fam := ⟨0x5003, 32, 20, 0, 0, [
  ⟨0x01, 3, 8, .u32, .rs, (.c 0), (.mult 64 0 0xFFFFFFC0), .none, 0, 0⟩,  -- WIN_BASE
  ⟨0x02, 3, 8, .u32, .rs, (.c 0), (.mult 64 0 33554432), .none, 0, 0⟩,  -- WIN_LEN
  ⟨0x03, 3, 8, .u8, .rs, (.c 0), (.mask 15), .none, 0, 0⟩,  -- WIN_RIGHTS
  ⟨0x19, 1, 1, .u32, .rs, (.c 0), (.mult 64 0 65536), .none, 0, 0⟩,  -- CONST_LEN
  ⟨0x1A, 1, 1, .u8, .rs, (.c 255), (.rgOr 255 0 31), .none, 0, 0⟩,  -- CONST_BLOCK
  ⟨0x1B, 1, 1, .u32, .rs, (.c 0), .any, .none, 0, 0⟩]⟩  -- CONST_GEN

def fam5004 : Fam := ⟨0x5004, 32, 20, 0, 0, [
  ⟨0x01, 1, 1, (.dom 131072), .rw, (.c 0), .any, .none, 0, 0⟩]⟩  -- DATA_MEM

def fam5300 : Fam := ⟨0x5300, 1, 1, 0, 0, [
  ⟨0x01, 1, 1, .u16, .co, (.c 8192), .any, .none, 0, 0⟩,  -- BANK_WORDS
  ⟨0x02, 1, 1, .u32, .rc, (.c 0), .any, .none, 0, 0⟩,  -- WINDOW_REFUSALS
  ⟨0x03, 1, 1, .u32, .rc, (.c 0), .any, .none, 0, 0⟩,  -- DIRECT_SHARED
  ⟨0x04, 1, 1, .u32, .rc, (.c 0), .any, .none, 0, 0⟩]⟩  -- CONST_LOADS

def fam5800 : Fam := ⟨0x5800, 1, 1, 0, 0, [
  ⟨0x01, 1, 1, .u16, .rw, (.c 0), (.rg (0) (2047)), .none, 0, 0⟩,  -- THREAD_SEL
  ⟨0x02, 1, 1, .u16, .rw, (.c 0), (.rg (0) (1023)), .none, 0, 0⟩,  -- COUNTER_SEL
  ⟨0x10, 1, 1, .u16, .rw, (.c 0), (.rg (0) (65535)), .counter, 0, 0⟩,  -- CNT_VALUE
  ⟨0x11, 1, 1, .u16, .rs, (.c 0), (.rg (0) (65535)), .counter, 0, 0⟩,  -- CNT_RELOAD
  ⟨0x12, 1, 1, .u8, .rs, .cntMode, .cntMode, .counter, 0, 0⟩,  -- CNT_MODE
  ⟨0x13, 1, 1, .u16, .ro, (.c 0), .any, .counter, 0, 0⟩,  -- CNT_WAITERS
  ⟨0x14, 1, 1, .u32, .rc, (.c 0), .any, .counter, 0, 0⟩,  -- CNT_ZEROS
  ⟨0x15, 1, 1, .u32, .rc, (.c 0), .any, .counter, 0, 0⟩,  -- CNT_EXTRA
  ⟨0x20, 1, 1, .u64, .ro, (.c 0), .any, .none, 0, 0⟩,  -- TICK_NOW
  ⟨0x21, 1, 1, .u8, .ro, (.c 0), .any, .none, 0, 0⟩,  -- PRIV_THREADS
  ⟨0x22, 1, 1, .u32, .rc, (.c 0), .any, .none, 0, 0⟩,  -- AUDIO_DROPS
  ⟨0x23, 1, 1, .u32, .rc, (.c 0), .any, .none, 0, 0⟩,  -- THREAD_STALLS
  ⟨0x24, 1, 1, .u32, .rc, (.c 0), .any, .none, 0, 0⟩]⟩  -- LAYOUT_DISCARDS

def fam5801 : Fam := ⟨0x5801, 1, 1, 0, 0, [
  ⟨0x01, 1, 1, .b1, .rs, (.c 0), (.rg 0 1), .thread, 0, 0⟩,  -- ENABLE
  ⟨0x02, 1, 1, .u8, .rs, (.c 0), (.rg (0) (1)), .thread, 0, 0⟩,  -- KIND
  ⟨0x03, 1, 1, .u8, .rs, (.c 255), (.rgOr 255 0 19), .thread, 0, 0⟩,  -- CORE
  ⟨0x04, 1, 1, .u16, .rs, (.c 0), (.rg (0) (8191)), .thread, 0, 0⟩,  -- ENTRY
  ⟨0x05, 1, 1, .u8, .rw, (.c 0), (.rg (0) (15)), .thread, 0, 0⟩,  -- LEVEL
  ⟨0x06, 1, 1, .b1, .rs, (.c 0), (.rg 0 1), .thread, 0, 0⟩,  -- PRIV
  ⟨0x07, 1, 1, .u8, .rs, (.c 0), (.rg (0) (3)), .thread, 0, 0⟩,  -- DLIST
  ⟨0x08, 1, 1, .u16, .rs, (.c 0), (.rg (0) (1023)), .thread, 0, 0⟩,  -- CNT_BASE
  ⟨0x09, 1, 1, .u16, .rs, (.c 0), (.rg (0) (1024)), .thread, 0, 0⟩,  -- CNT_NUM
  ⟨0x0A, 1, 1, .u16, .rs, (.c 0), (.rg (0) (4095)), .thread, 0, 0⟩,  -- Q_BASE
  ⟨0x0B, 1, 1, .u16, .rs, (.c 0), (.rg (0) (4096)), .thread, 0, 0⟩,  -- Q_NUM
  ⟨0x0C, 1, 1, .u16, .rs, (.c 65535), (.rgOr 65535 128 1023), .thread, 0, 0⟩,  -- WAKE_CNT
  ⟨0x0D, 1, 1, .u16, .rs, (.c 65535), (.rgOr 65535 128 1023), .thread, 0, 0⟩,  -- DONE_CNT
  ⟨0x0E, 1, 1, .b1, .wo, (.c 0), (.rg 1 1), .thread, 0, 0⟩,  -- KICK
  ⟨0x10, 1, 4, .u8, .rs, (.c 255), (.rgOr 255 0 127), .thread, 0, 0⟩,  -- IN_CH
  ⟨0x14, 1, 8, .u8, .rs, (.c 255), (.rgOr 255 0 127), .thread, 0, 0⟩,  -- OUT_CH
  ⟨0x1C, 1, 1, .u8, .ro, (.c 0), .any, .thread, 0, 0⟩,  -- STATE
  ⟨0x1D, 1, 1, .u16, .ro, (.c 65535), .any, .thread, 0, 0⟩,  -- WAIT_ON
  ⟨0x1E, 1, 1, .u16, .ro, (.c 65535), .any, .thread, 0, 0⟩,  -- FLOW_HELD
  ⟨0x1F, 1, 1, .u8, .ro, (.c 0), .any, .thread, 0, 0⟩]⟩  -- GATE

def fam5A00 : Fam := ⟨0x5A00, 1, 1, 0, 0, [
  ⟨0x01, 1, 1, .u16, .rw, (.c 0), (.rg (0) (4095)), .none, 0, 0⟩]⟩  -- QUEUE_SEL

def fam5A01 : Fam := ⟨0x5A01, 1, 1, 0, 0, [
  ⟨0x01, 1, 1, .u8, .ro, (.c 0), .any, .queue, 0, 0⟩,  -- Q_KIND
  ⟨0x02, 1, 1, .u16, .rs, (.c 0), (.pow2 true), .queue, 0, 0⟩,  -- DEPTH
  ⟨0x03, 1, 1, .u16, .ro, (.c 0), .any, .queue, 0, 0⟩,  -- DEPTH_NOW
  ⟨0x04, 1, 1, .u16, .ro, (.c 0), .any, .queue, 0, 0⟩,  -- COUNT
  ⟨0x05, 1, 1, .b1, .ro, (.c 1), .any, .queue, 0, 0⟩,  -- EMPTY
  ⟨0x06, 1, 1, .u32, .rc, (.c 0), .any, .queue, 0, 0⟩,  -- UNDERRUNS
  ⟨0x07, 1, 1, .u32, .rc, (.c 0), .any, .queue, 0, 0⟩,  -- FULL_WAITS
  ⟨0x08, 1, 1, .u8, .rs, (.c 0), .any, .queue, 0, 0⟩,  -- PORT_GRANT
  ⟨0x09, 1, 1, (.dom 16), .rw, (.c 0), .any, .queue, 0, 0⟩,  -- ITEM
  ⟨0x0A, 1, 1, .b1, .wo, (.c 0), (.rg 1 1), .queue, 0, 0⟩,  -- TAKE
  ⟨0x0B, 1, 1, .b1, .wo, (.c 0), (.rg 1 1), .queue, 0, 0⟩,  -- FLUSH
  ⟨0x0C, 1, 1, .u16, .ro, (.c 0), .any, .queue, 0, 0⟩]⟩  -- FLOW

def fam5C00 : Fam := ⟨0x5C00, 1, 256, 0, 0, [
  ⟨0x01, 1, 1, .u16, .rs, .inst, (.rgOr 0xFFFF 0 4095), .none, 0, 0⟩,  -- FLOW_Q
  ⟨0x02, 1, 1, .u16, .ro, (.c 65535), .any, .none, 0, 0⟩,  -- HOLDER
  ⟨0x03, 1, 1, .b1, .ro, (.c 0), .any, .none, 0, 0⟩,  -- IN_SERVICE
  ⟨0x04, 1, 1, .u32, .rc, (.c 0), .any, .none, 0, 0⟩]⟩  -- CONTENDED

def fam5E00 : Fam := ⟨0x5E00, 1, 4, 0, 0, [
  ⟨0x01, 1, 1, .u16, .rs, (.c 1), .period, .none, 0, 0⟩,  -- PERIOD
  ⟨0x02, 1, 1, .u16, .ro, (.c 0), .any, .none, 0, 0⟩,  -- ENTRIES
  ⟨0x03, 1, 1, .u64, .ro, (.c 0xFFFFFFFFFFFFFFFF), .any, .none, 0, 0⟩,  -- NEXT_EXPIRY
  ⟨0x04, 1, 1, .u32, .rc, (.c 0), .any, .none, 0, 0⟩]⟩  -- EXPIRIES

def fam5F00 : Fam := ⟨0x5F00, 1, 1, 0, 0, [
  ⟨0x01, 1, 1, .u16, .rs, (.c 1024), (.rg (256) (1472)), .none, 0, 0⟩,  -- VOICE_QUEUES
  ⟨0x02, 1, 1, .u16, .ro, (.c 512), .any, .none, 0, 0⟩,  -- IO_QUEUES
  ⟨0x03, 1, 1, .u16, .rs, (.c 64), (.pow2 false), .none, 0, 0⟩,  -- DEF_DEPTH_PART
  ⟨0x04, 1, 1, .u16, .ro, (.c 64), .any, .none, 0, 0⟩,  -- DEF_DEPTH_ROOT
  ⟨0x05, 1, 1, .u16, .rs, (.c 16), (.pow2 false), .none, 0, 0⟩,  -- DEF_DEPTH_VOICE
  ⟨0x06, 1, 1, .u16, .rs, (.c 64), (.pow2 false), .none, 0, 0⟩,  -- DEF_DEPTH_IO
  ⟨0x07, 1, 1, .u16, .rs, (.c 16), (.pow2 false), .none, 0, 0⟩,  -- DEF_DEPTH_MAILBOX
  ⟨0x08, 1, 1, .u32, .ro, (.c 0x1C000), .any, .none, 0, 0⟩,  -- ITEMS_USED
  ⟨0x09, 1, 1, .u32, .ro, (.c 16384), .any, .none, 0, 0⟩,  -- ITEMS_FREE
  ⟨0x0A, 1, 1, .u32, .co, (.c 0x20000), .any, .none, 0, 0⟩]⟩  -- STORE_ITEMS

def fam6000 : Fam := ⟨0x6000, 1, 64, 0, 0, [
  ⟨0x01, 1, 1, .u8, .co, (.c 0), .any, .none, 0, 0⟩,  -- QUADRANT
  ⟨0x02, 1, 1, .u8, .co, (.c 0), .any, .none, 0, 0⟩,  -- REPAIRS
  ⟨0x03, 1, 1, .u32, .rc, (.c 0), .any, .none, 0, 0⟩,  -- CE_COUNT
  ⟨0x04, 1, 1, .u32, .rc, (.c 0), .any, .none, 0, 0⟩,  -- UE_COUNT
  ⟨0x05, 1, 1, .u32, .ro, (.c 0), .any, .none, 0, 0⟩,  -- LAST_UE
  ⟨0x06, 1, 1, .u32, .rc, (.c 0), .any, .none, 0, 0⟩,  -- CONFLICTS
  ⟨0x07, 1, 1, .u16, .ro, (.c 0), .any, .none, 0, 0⟩]⟩  -- POISONED

def fam6100 : Fam := ⟨0x6100, 1, 1, 0, 0, [
  ⟨0x01, 1, 6, .u32, .co, (.c 0), .any, .none, 0, 0⟩,  -- REGION_BASE
  ⟨0x07, 1, 6, .u32, .co, (.c 0), .any, .none, 0, 0⟩,  -- REGION_SIZE
  ⟨0x10, 1, 1, (.dom 4096000), .rw, (.c 0), .any, .none, 0, 0⟩,  -- WT_POOL
  ⟨0x11, 1, 64, (.dom 1024), .rw, (.c 0), .any, .none, 0, 0⟩,  -- UCURVE
  ⟨0x51, 1, 64, .u32, .rs, (.c 0), .wtDir, .none, 0, 0⟩,  -- WT_DIR
  ⟨0x91, 1, 1, .u64, .rs, (.c 0), .any, .none, 0, 0⟩]⟩  -- CURVE_VALID

def fam6110 : Fam := ⟨0x6110, 1, 1, 0, 0, [
  ⟨0x01, 1, 1, .u32, .co, (.c 0xD40000), .any, .none, 0, 0⟩,  -- HEAP_USER_BASE
  ⟨0x02, 1, 1, .u32, .ro, (.c 0x1A18000), .any, .none, 0, 0⟩,  -- HEAP_USER_TOP
  ⟨0x03, 1, 1, .u16, .ro, (.c 0), .any, .none, 0, 0⟩,  -- SAVE_RECORDS
  ⟨0x04, 1, 1, .u32, .ro, (.c 0), .any, .none, 0, 0⟩,  -- USER_USED
  ⟨0x05, 1, 1, .u32, .ro, (.c 0xCD8000), .any, .none, 0, 0⟩,  -- USER_FREE
  ⟨0x06, 1, 1, .u32, .ro, (.c 0xCD8000), .any, .none, 0, 0⟩,  -- LARGEST_FREE
  ⟨0x07, 1, 1, .u32, .ro, (.c 0), .any, .none, 0, 0⟩,  -- ZERO_FILLED
  ⟨0x10, 2, 32, .u32, .rs, (.c 0), (.mult 64 0 13467648), .none, 0, 0⟩,  -- HB_SIZE
  ⟨0x11, 2, 32, .u32, .ro, (.c 0xFFFFFFFF), .any, .none, 0, 0⟩]⟩  -- HB_BASE

def fam6800 : Fam := ⟨0x6800, 1, 1, 0, 0, [
  ⟨0x01, 1, 1, .u16, .rw, (.c 0), (.rg (0) (65535)), .none, 0, 0⟩]⟩  -- REGION_SEL

def fam6801 : Fam := ⟨0x6801, 1, 1, 0, 0, [
  ⟨0x01, 1, 1, .b1, .rs, (.c 0), (.rg 0 1), .region, 0, 0⟩,  -- ENABLE
  ⟨0x02, 1, 1, .u64, .rs, (.c 0), (.mult 64 0 0xFFFFFFFFFFFFFFC0), .region, 0, 0⟩,  -- START
  ⟨0x03, 1, 1, .u32, .rs, (.c 0), (.rg (0) (4294967295)), .region, 0, 0⟩,  -- LEN
  ⟨0x04, 1, 1, .u8, .rs, (.c 0), (.rg (0) (3)), .region, 0, 0⟩,  -- FORMAT
  ⟨0x05, 1, 1, .u32, .rs, (.c 0), .any, .region, 0, 0⟩,  -- LOOP_START
  ⟨0x06, 1, 1, .u32, .rs, (.c 0), .any, .region, 0, 0⟩,  -- LOOP_END
  ⟨0x07, 1, 1, .u32, .rs, (.c 0), .any, .region, 0, 0⟩,  -- CRC
  ⟨0x08, 1, 1, .b1, .rs, (.c 0), (.rg 0 1), .region, 0, 0⟩,  -- ARM
  ⟨0x09, 1, 1, .u8, .ro, (.c 0), .any, .region, 0, 0⟩,  -- STATE
  ⟨0x0A, 1, 1, .u16, .ro, (.c 0), .any, .region, 0, 0⟩,  -- USERS
  ⟨0x0B, 1, 1, .b1, .wo, (.c 0), (.rg 1 1), .region, 0, 0⟩,  -- VERIFY
  ⟨0x0C, 1, 1, .u8, .ro, (.c 0), .any, .region, 0, 0⟩,  -- VERIFY_STATE
  ⟨0x0D, 1, 1, .u32, .ro, (.c 0), .any, .region, 0, 0⟩,  -- VERIFY_CRC
  ⟨0x0E, 1, 1, (.dom 0), .rw, (.c 0), .any, .region, 0, 0⟩,  -- DATA
  ⟨0x0F, 1, 1, .b1, .ro, (.c 0), .any, .region, 0, 0⟩]⟩  -- HEAD_HELD

def fam6810 : Fam := ⟨0x6810, 1, 1, 0, 0, [
  ⟨0x01, 1, 1, .u16, .rs, (.c 6400), (.set [3200, 4267, 5500, 6400]), .none, 0, 0⟩,  -- DATA_RATE
  ⟨0x02, 1, 1, .u64, .ro, (.c 0), .any, .none, 0, 0⟩,  -- CAPACITY
  ⟨0x03, 1, 1, .u64, .ro, (.c 0), .any, .none, 0, 0⟩]⟩  -- FITTED

def fam6820 : Fam := ⟨0x6820, 1, 1, 0, 0, [
  ⟨0x01, 1, 1, .u16, .rs, (.c 1024), (.rg (0) (4608)), .none, 0, 0⟩,  -- STREAM_COUNT
  ⟨0x02, 1, 1, .u16, .rs, (.c 512), (.rg (256) (4096)), .none, 0, 0⟩,  -- STREAM_RATIO
  ⟨0x03, 1, 1, .u8, .rs, (.c 2), (.rg (1) (8)), .none, 0, 0⟩,  -- STREAM_BUF
  ⟨0x04, 1, 1, .u16, .rs, (.c 512), (.rg (128) (2048)), .none, 0, 0⟩,  -- HEAD_FRAMES
  ⟨0x05, 1, 1, .u16, .rs, (.c 1000), (.rg (0) (40000)), .none, 0, 0⟩,  -- RELOC_RATE
  ⟨0x06, 1, 1, .u16, .rs, (.c 2000), (.rg (0) (40000)), .none, 0, 0⟩,  -- VERIFY_RATE
  ⟨0x07, 1, 1, .u16, .rs, (.c 10), (.rg (0) (1000)), .none, 0, 0⟩,  -- SCRUB_RATE
  ⟨0x08, 1, 1, .u32, .ro, (.c 4115), .any, .none, 0, 0⟩,  -- BOOKED
  ⟨0x09, 1, 1, .u32, .ro, (.c 40960), .any, .none, 0, 0⟩,  -- BOOK_LIMIT
  ⟨0x0A, 1, 1, .u32, .ro, (.c 0), .any, .none, 0, 0⟩,  -- HEAD_USED
  ⟨0x0B, 1, 1, .u16, .ro, (.c 0), .any, .none, 0, 0⟩,  -- STREAMS_OPEN
  ⟨0x0C, 1, 1, .u32, .rc, (.c 0), .any, .none, 0, 0⟩,  -- STREAMS_DENIED
  ⟨0x0D, 1, 1, .u32, .rc, (.c 0), .any, .none, 0, 0⟩,  -- NO_REGION_NOTES
  ⟨0x0E, 1, 1, .u32, .rc, (.c 0), .any, .none, 0, 0⟩,  -- FETCH_LAT_MAX
  ⟨0x10, 8, 8, .u8, .rs, (.c 255), .owner, .none, 0, 0⟩,  -- OWNER
  ⟨0x11, 8, 8, .u16, .rs, (.c 0), (.rg (0) (40000)), .none, 0, 0⟩,  -- RATE
  ⟨0x12, 8, 8, .u64, .rs, (.c 0), .any, .none, 0, 0⟩,  -- TWIN_BASE
  ⟨0x13, 8, 8, .u64, .rs, (.c 0), .any, .none, 0, 0⟩,  -- TWIN_LEN
  ⟨0x14, 8, 8, .u32, .rs, (.c 0), .any, .none, 0, 0⟩,  -- GWIN_BASE
  ⟨0x15, 8, 8, .u32, .rs, (.c 0), .any, .none, 0, 0⟩,  -- GWIN_LEN
  ⟨0x16, 8, 8, .u16, .rs, (.c 0), (.rg (0) (4095)), .none, 0, 0⟩,  -- RING
  ⟨0x17, 8, 8, .u16, .rs, (.c 0), (.rg (0) (4095)), .none, 0, 0⟩]⟩  -- CQUEUE

def fam6830 : Fam := ⟨0x6830, 1, 1, 0, 0, [
  ⟨0x01, 1, 1, .u16, .rw, (.c 0), (.rg (0) (65535)), .none, 0, 0⟩,  -- RELOC_REGION
  ⟨0x02, 1, 1, .u64, .rw, (.c 0), .any, .none, 0, 0⟩,  -- RELOC_DEST
  ⟨0x03, 1, 1, .b1, .wo, (.c 0), (.rg 1 1), .none, 0, 0⟩,  -- RELOC_GO
  ⟨0x04, 1, 1, .u8, .ro, (.c 0), .any, .none, 0, 0⟩,  -- MOVE_STATE
  ⟨0x05, 1, 1, .u16, .ro, (.c 0), .any, .none, 0, 0⟩,  -- MOVE_REGION
  ⟨0x06, 1, 1, .u64, .ro, (.c 0), .any, .none, 0, 0⟩,  -- MOVE_OLD
  ⟨0x07, 1, 1, .u64, .ro, (.c 0), .any, .none, 0, 0⟩,  -- MOVE_BYTES
  ⟨0x08, 1, 1, .u64, .ro, (.c 0), .any, .none, 0, 0⟩,  -- MOVE_SWITCH
  ⟨0x09, 1, 1, .b1, .wo, (.c 0), (.rg 1 1), .none, 0, 0⟩]⟩  -- RELOC_ABORT

def fam6840 : Fam := ⟨0x6840, 1, 1, 0, 0, [
  ⟨0x01, 1, 1, .b1, .rs, (.c 1), (.rg 0 1), .none, 0, 0⟩,  -- RETAIN
  ⟨0x02, 1, 1, .b1, .ro, (.c 0), .any, .none, 0, 0⟩,  -- RETAINED
  ⟨0x03, 1, 1, .u32, .ro, (.c 0), .any, .none, 0, 0⟩]⟩  -- SR_TIME

def fam6850 : Fam := ⟨0x6850, 1, 2, 0, 0, [
  ⟨0x01, 1, 1, .u8, .ro, (.c 0), .any, .none, 0, 0⟩,  -- CH_STATE
  ⟨0x02, 1, 1, .u8, .ro, (.c 0), .any, .none, 0, 0⟩,  -- RANKS
  ⟨0x03, 1, 1, .u32, .rc, (.c 0), .any, .none, 0, 0⟩,  -- CE_COUNT
  ⟨0x04, 1, 1, .u32, .rc, (.c 0), .any, .none, 0, 0⟩,  -- UE_COUNT
  ⟨0x05, 1, 1, .u32, .ro, (.c 0), .any, .none, 0, 0⟩,  -- LAST_UE
  ⟨0x06, 1, 1, .u8, .ro, (.c 1), .any, .none, 0, 0⟩]⟩  -- REFRESH_MULT

def fam7000 : Fam := ⟨0x7000, 16, 4, 0, 0, [
  ⟨0x01, 1, 1, .b1, .rs, (.c 0), (.rg 0 1), .none, 0, 0⟩,  -- SAP_ENABLE
  ⟨0x02, 1, 1, .u8, .rs, (.c 0), (.rg (0) (1)), .none, 0, 0⟩,  -- ROLE
  ⟨0x03, 1, 1, .u8, .rs, (.c 0), (.rg (0) (2)), .none, 0, 0⟩,  -- FORMAT
  ⟨0x04, 1, 1, .u8, .rs, (.c 2), (.rg (2) (16)), .none, 0, 0⟩,  -- SLOTS
  ⟨0x05, 1, 1, .u8, .rs, (.c 32), (.set [16, 24, 32]), .none, 0, 0⟩,  -- SLOT_BITS
  ⟨0x06, 1, 1, .u8, .rs, (.c 0), (.set [0, 1]), .none, 0, 0⟩,  -- BCLK_POL
  ⟨0x07, 1, 1, .u8, .rs, (.c 0), (.mask 7), .none, 0, 0⟩,  -- FSYNC_CFG
  ⟨0x08, 1, 1, .u32, .rs, (.c 0), .any, .none, 0, 0⟩,  -- IN_MASK
  ⟨0x09, 1, 1, .u32, .rs, (.c 0), .any, .none, 0, 0⟩,  -- OUT_MASK
  ⟨0x0A, 1, 1, .u16, .rs, (.c 65535), (.rgOr 0xFFFF 768 2047), .none, 0, 0⟩,  -- IN_RING
  ⟨0x0B, 1, 1, .u8, .rs, (.c 0), (.rg (0) (1)), .none, 0, 0⟩,  -- OUT_MODE
  ⟨0x0C, 1, 1, .u16, .rs, (.c 65535), (.rgOr 0xFFFF 768 2047), .none, 0, 0⟩,  -- OUT_RING
  ⟨0x0D, 1, 1, .u8, .ro, (.c 0), .any, .none, 0, 0⟩,  -- IN_CHANNELS
  ⟨0x0E, 1, 1, .u8, .ro, (.c 0), .any, .none, 0, 0⟩,  -- OUT_CHANNELS
  ⟨0x0F, 1, 1, .u32, .ro, (.c 0), .any, .none, 0, 0⟩,  -- FRAME_RATE
  ⟨0x10, 1, 1, .u32, .ro, (.c 0), .any, .none, 0, 0⟩,  -- BCLK_HZ
  ⟨0x11, 1, 1, .u8, .ro, (.c 0), .any, .none, 0, 0⟩,  -- PORT_STATE
  ⟨0x12, 1, 1, .u32, .rc, (.c 0), .any, .none, 0, 0⟩,  -- FRAME_ERRORS
  ⟨0x13, 1, 1, .u32, .rc, (.c 0), .any, .none, 0, 0⟩,  -- IN_OVERFLOWS
  ⟨0x14, 1, 1, .u32, .rc, (.c 0), .any, .none, 0, 0⟩,  -- OUT_UNDERRUNS
  ⟨0x15, 1, 1, .u32, .rc, (.c 0), .any, .none, 0, 0⟩,  -- OUT_SLIPS
  ⟨0x20, 1, 32, .u8, .rs, (.c 255), (.rgOr 255 0 127), .none, 0, 0⟩]⟩  -- OUT_SRC

def fam7100 : Fam := ⟨0x7100, 1, 4, 0, 0, [
  ⟨0x01, 1, 1, .u8, .rs, (.c 1), (.rg (0) (1)), .none, 0, 0⟩,  -- ASRC_MODE
  ⟨0x02, 1, 1, .u8, .ro, (.c 0), .any, .none, 0, 0⟩,  -- ASRC_STATE
  ⟨0x03, 1, 1, .u32, .ro, (.c 0), .any, .none, 0, 0⟩,  -- ASRC_RATIO
  ⟨0x04, 1, 1, .u32, .rc, (.c 0), .any, .none, 0, 0⟩,  -- ASRC_UNLOCKS
  ⟨0x05, 1, 1, .u16, .ro, (.c 0), .any, .none, 0, 0⟩]⟩  -- ASRC_DELAY

def fam7400 : Fam := ⟨0x7400, 1, 8, 0, 0, [
  ⟨0x01, 1, 1, .b1, .rs, (.c 0), (.rg 0 1), .none, 0, 0⟩,  -- DAC_ENABLE
  ⟨0x02, 1, 1, .u8, .rs, (.c 0), (.rg (0) (1)), .none, 0, 0⟩,  -- INTERP
  ⟨0x03, 1, 1, .b1, .rs, (.c 1), (.rg 0 1), .none, 0, 0⟩,  -- FAULT_MUTE
  ⟨0x04, 1, 1, .u8, .ro, (.c 0), .any, .none, 0, 0⟩,  -- DAC_STATE
  ⟨0x05, 1, 1, .b1, .ro, (.c 0), .any, .none, 0, 0⟩,  -- OPEN_LOAD
  ⟨0x06, 1, 1, .b1, .ro, (.c 0), .any, .none, 0, 0⟩,  -- COMPLIANCE
  ⟨0x07, 1, 1, .u32, .rc, (.c 0), .any, .none, 0, 0⟩,  -- FAULT_EVENTS
  ⟨0x08, 1, 1, .u8, .ro, (.c 7), .any, .none, 0, 0⟩]⟩  -- GROUP_DELAY

def fam7410 : Fam := ⟨0x7410, 1, 16, 0, 0, [
  ⟨0x01, 1, 1, .b1, .rs, (.c 0), (.rg 0 1), .none, 0, 0⟩,  -- CV_ENABLE
  ⟨0x02, 1, 1, .u8, .rs, (.c 0), (.rg (0) (1)), .none, 0, 0⟩,  -- CV_RANGE
  ⟨0x03, 1, 1, .u32, .rs, (.c 0x20000), (.rg (0) (262143)), .none, 0, 0⟩,  -- CLEAR_CODE
  ⟨0x04, 1, 1, .u32, .ro, (.c 0x20000), .any, .none, 0, 0⟩,  -- CV_CODE_NOW
  ⟨0x05, 1, 1, .u32, .rc, (.c 0), .any, .none, 0, 0⟩]⟩  -- CV_LOADS

def fam7420 : Fam := ⟨0x7420, 1, 1, 0, 0, [
  ⟨0x01, 1, 1, .b1, .rs, (.c 0), (.rg 0 1), .none, 0, 0⟩,  -- CV_GROUP_ENABLE
  ⟨0x02, 1, 1, .u8, .rs, (.c 0), (.rg (0) (2)), .none, 0, 0⟩,  -- LD_SRC
  ⟨0x03, 1, 1, .u8, .rs, (.c 0), (.rg (0) (15)), .none, 0, 0⟩,  -- LD_TIMER
  ⟨0x04, 1, 1, .u8, .rs, (.c 0), (.rg (0) (1)), .none, 0, 0⟩,  -- VREF_SEL
  ⟨0x05, 1, 1, .b1, .rw, (.c 0), (.rg 0 1), .none, 0, 0⟩,  -- CV_CLEAR
  ⟨0x06, 1, 1, .b1, .ro, (.c 0), .any, .none, 0, 0⟩,  -- CLEAR_ACTIVE
  ⟨0x07, 1, 1, .u32, .rc, (.c 0), .any, .none, 0, 0⟩]⟩  -- STROBES

def fam7440 : Fam := ⟨0x7440, 1, 24, 0, 0, [
  ⟨0x01, 1, 1, .u32, .rs, (.c 0), .any, .none, 0, 0⟩,  -- SG_INC
  ⟨0x02, 1, 1, .u32, .rs, (.c 0), .any, .none, 0, 0⟩,  -- SG_PHASE0
  ⟨0x03, 1, 1, .i32, .rs, (.c 0), (.rg (0) (2147483647)), .none, 0, 0⟩]⟩  -- SG_LEVEL

def fam7500 : Fam := ⟨0x7500, 1, 8, 0, 0, [
  ⟨0x01, 1, 1, .u8, .rs, .inst, (.rgOr 255 0 127), .none, 0, 0⟩,  -- SRC0
  ⟨0x02, 1, 1, .i32, .rs, (.c 0x10000000), (.rg (-2147483648) (2147483647)), .none, 0, 0⟩,  -- GAIN0
  ⟨0x03, 1, 1, .u8, .rs, (.c 255), (.rgOr 255 0 127), .none, 0, 0⟩,  -- SRC1
  ⟨0x04, 1, 1, .i32, .rs, (.c 0x10000000), (.rg (-2147483648) (2147483647)), .none, 0, 0⟩,  -- GAIN1
  ⟨0x05, 1, 1, .i32, .rs, (.c 0), (.rg (-2147483648) (2147483647)), .none, 0, 0⟩,  -- OFFSET
  ⟨0x06, 1, 1, .u32, .rc, (.c 0), .any, .none, 0, 0⟩]⟩  -- CLIPS

def fam7510 : Fam := ⟨0x7510, 1, 16, 0, 0, [
  ⟨0x01, 1, 1, .u8, .rs, (.c 255), (.rgOr 255 0 127), .none, 0, 0⟩,  -- SRC0
  ⟨0x02, 1, 1, .i32, .rs, (.c 0x10000000), (.rg (-2147483648) (2147483647)), .none, 0, 0⟩,  -- GAIN0
  ⟨0x03, 1, 1, .u8, .rs, (.c 255), (.rgOr 255 0 127), .none, 0, 0⟩,  -- SRC1
  ⟨0x04, 1, 1, .i32, .rs, (.c 0x10000000), (.rg (-2147483648) (2147483647)), .none, 0, 0⟩,  -- GAIN1
  ⟨0x05, 1, 1, .i32, .rs, (.c 0), (.rg (-2147483648) (2147483647)), .none, 0, 0⟩,  -- OFFSET
  ⟨0x06, 1, 1, .u32, .rc, (.c 0), .any, .none, 0, 0⟩]⟩  -- CLIPS

def fam7580 : Fam := ⟨0x7580, 1, 1, 0, 0, [
  ⟨0x01, 1, 1, .u32, .rc, (.c 0), .any, .none, 0, 0⟩,  -- CLIP_TOTAL
  ⟨0x02, 1, 1, .u32, .ro, (.c 0), .any, .none, 0, 0⟩]⟩  -- OUTPUTS_ENABLED

def fam7800 : Fam := ⟨0x7800, 1, 1, 0, 0, [
  ⟨0x01, 1, 1, .b1, .rs, (.c 0), (.rg 0 1), .none, 0, 0⟩,  -- SENSE_ENABLE
  ⟨0x02, 1, 1, .u8, .rs, (.c 125), (.rg (16) (125)), .none, 0, 0⟩,  -- CTRL_DIV
  ⟨0x03, 1, 1, .u16, .rs, (.c 65535), (.rgOr 0xFFFF 768 2047), .none, 0, 0⟩,  -- FINE_RING
  ⟨0x04, 1, 1, .u16, .rs, (.c 65535), (.rgOr 0xFFFF 768 2047), .none, 0, 0⟩,  -- STRIKE_RING
  ⟨0x05, 1, 1, .u16, .rs, (.c 1000), (.rg (100) (10000)), .none, 0, 0⟩,  -- FB_PERIOD
  ⟨0x06, 1, 1, .u8, .rs, (.c 0), (.rg (0) (7)), .none, 0, 0⟩,  -- FB_ADDR
  ⟨0x07, 1, 1, .b1, .rs, (.c 1), (.rg 0 1), .none, 0, 0⟩,  -- DERATE_OFF
  ⟨0x08, 1, 1, .u8, .ro, (.c 0), .any, .none, 0, 0⟩,  -- PATH_STATE
  ⟨0x09, 1, 1, .u32, .rc, (.c 0), .any, .none, 0, 0⟩,  -- FINE_DROPS
  ⟨0x0A, 1, 1, .u32, .rc, (.c 0), .any, .none, 0, 0⟩,  -- STRIKE_DROPS
  ⟨0x0B, 1, 1, .u32, .rc, (.c 0), .any, .none, 0, 0⟩,  -- MAIN_OFF_EVENTS
  ⟨0x0C, 1, 1, .u32, .rs, (.c 0), .any, .none, 0, 0⟩]⟩  -- MUXED

def fam7810 : Fam := ⟨0x7810, 1, 32, 0, 0, [
  ⟨0x01, 1, 1, .b1, .rs, (.c 0), (.rg 0 1), .none, 0, 0⟩,  -- CH_ENABLE
  ⟨0x02, 1, 1, .u16, .ro, (.c 0), .any, .none, 0, 0⟩,  -- CODE_NOW
  ⟨0x03, 1, 1, .u32, .rc, (.c 0), .any, .none, 0, 0⟩]⟩  -- CLIPS

def fam7840 : Fam := ⟨0x7840, 1, 32, 0, 0, [
  ⟨0x01, 1, 1, .u16, .rs, (.c 0), .any, .none, 0, 0⟩,  -- DET_REF
  ⟨0x02, 1, 1, .u8, .rs, (.c 0), (.rg (0) (7)), .none, 0, 0⟩,  -- DET_ADDR
  ⟨0x03, 1, 1, .u8, .rs, (.c 10), (.rg (1) (20)), .none, 0, 0⟩,  -- RMS_SHIFT
  ⟨0x04, 1, 1, .u8, .rs, (.c 2), (.rg (0) (20)), .none, 0, 0⟩,  -- ATK_SHIFT
  ⟨0x05, 1, 1, .u8, .rs, (.c 10), (.rg (0) (20)), .none, 0, 0⟩,  -- REL_SHIFT
  ⟨0x06, 1, 1, .u16, .rc, (.c 0), .any, .none, 0, 0⟩,  -- PEAK
  ⟨0x07, 1, 1, .u32, .ro, (.c 0), .any, .none, 0, 0⟩,  -- MS
  ⟨0x08, 1, 1, .u16, .ro, (.c 0), .any, .none, 0, 0⟩,  -- RMS
  ⟨0x09, 1, 1, .u16, .ro, (.c 0), .any, .none, 0, 0⟩,  -- ENV
  ⟨0x0A, 1, 1, .u16, .rs, (.c 32767), (.rg (1) (32767)), .none, 0, 0⟩,  -- WAKE_TH
  ⟨0x0B, 1, 1, .b1, .rs, (.c 0), (.rg 0 1), .none, 0, 0⟩,  -- WAKE_EN
  ⟨0x0C, 1, 1, .u32, .rc, (.c 0), .any, .none, 0, 0⟩]⟩  -- WAKE_HITS

def fam7900 : Fam := ⟨0x7900, 1, 256, 0, 0, [
  ⟨0x01, 1, 1, .u8, .rs, (.c 1), (.rg (0) (2)), .none, 0, 0⟩,  -- DCB_MODE
  ⟨0x02, 1, 1, .u8, .rs, (.c 14), (.rg (4) (24)), .none, 0, 0⟩,  -- DCB_SHIFT
  ⟨0x03, 1, 1, .b1, .rw, (.c 0), (.rg 0 1), .none, 0, 0⟩,  -- DCB_FREEZE
  ⟨0x04, 1, 1, .b1, .rs, (.c 0), (.rg 0 1), .none, 0, 0⟩,  -- FINE_EN
  ⟨0x05, 1, 1, .i32, .ro, (.c 0), .any, .none, 0, 0⟩,  -- FINE_VALUE
  ⟨0x06, 1, 1, .b1, .rs, (.c 0), (.rg 0 1), .none, 0, 0⟩,  -- STRIKE_EN
  ⟨0x07, 1, 1, .u8, .rs, (.c 0), (.rg (0) (1)), .none, 0, 0⟩,  -- STRIKE_DIR
  ⟨0x08, 1, 1, .u16, .rs, (.c 256), (.rg (1) (1022)), .none, 0, 0⟩,  -- TH1
  ⟨0x09, 1, 1, .u16, .rs, (.c 768), (.rg (2) (1023)), .none, 0, 0⟩,  -- TH2
  ⟨0x0A, 1, 1, .u16, .rs, (.c 16), (.rg (0) (255)), .none, 0, 0⟩,  -- HYST
  ⟨0x0B, 1, 1, .u8, .ro, (.c 0), .any, .none, 0, 0⟩,  -- STRIKE_STATE
  ⟨0x0C, 1, 1, .u16, .ro, (.c 0), .any, .none, 0, 0⟩,  -- COARSE_NOW
  ⟨0x0D, 1, 1, .u32, .rc, (.c 0), .any, .none, 0, 0⟩]⟩  -- STRIKES

def fam7C00 : Fam := ⟨0x7C00, 1, 16, 0, 0, [
  ⟨0x01, 1, 1, .b1, .rs, (.c 0), (.rg 0 1), .none, 0, 0⟩,  -- TC_ENABLE
  ⟨0x02, 1, 1, .u8, .rs, (.c 0), (.rg (0) (13)), .none, 0, 0⟩,  -- CLK_SRC
  ⟨0x03, 1, 1, .u32, .rs, (.c 0x10000), .prescale, .none, 0, 0⟩,  -- PRESCALE
  ⟨0x04, 1, 1, .u32, .rw, (.c 0), .any, .none, 0, 0⟩,  -- CNT
  ⟨0x05, 1, 1, .u32, .rw, (.c 0), .any, .none, 0, 0⟩,  -- CMP
  ⟨0x06, 1, 1, .u32, .rs, (.c 0), .any, .none, 0, 0⟩,  -- INTERVAL
  ⟨0x07, 1, 1, .b1, .rs, (.c 0), (.rg 0 1), .none, 0, 0⟩,  -- CMP_EN
  ⟨0x08, 1, 1, .u8, .rs, (.c 255), (.rgOr 255 0 7), .none, 0, 0⟩,  -- OUT_PIN
  ⟨0x09, 1, 1, .u8, .rs, (.c 0), (.rg (0) (2)), .none, 0, 0⟩,  -- OUT_ACTION
  ⟨0x0A, 1, 1, .u8, .rs, (.c 255), (.rgOr 255 0 7), .none, 0, 0⟩,  -- CAP_PIN
  ⟨0x0B, 1, 1, .u8, .rs, (.c 0), (.rg (0) (2)), .none, 0, 0⟩,  -- CAP_EDGE
  ⟨0x0C, 1, 1, .u16, .rs, (.c 1), (.rg (1) (256)), .none, 0, 0⟩,  -- CAP_DIV
  ⟨0x0D, 1, 1, .u32, .ro, (.c 0), .any, .none, 0, 0⟩,  -- CAP
  ⟨0x0E, 1, 1, .u32, .ro, (.c 0), .any, .none, 0, 0⟩,  -- CAP_PERIOD
  ⟨0x0F, 1, 1, .u64, .ro, (.c 0), .any, .none, 0, 0⟩,  -- CAP_SIX
  ⟨0x10, 1, 1, .u16, .rs, (.c 65535), (.rgOr 0xFFFF 768 2047), .none, 0, 0⟩,  -- CAP_RING
  ⟨0x11, 1, 1, .u32, .rc, (.c 0), .any, .none, 0, 0⟩,  -- MATCHES
  ⟨0x12, 1, 1, .u32, .rc, (.c 0), .any, .none, 0, 0⟩,  -- CAPTURES
  ⟨0x13, 1, 1, .u32, .rc, (.c 0), .any, .none, 0, 0⟩,  -- OVERFLOWS
  ⟨0x14, 1, 1, .u32, .rc, (.c 0), .any, .none, 0, 0⟩,  -- CAP_DROPS
  ⟨0x15, 1, 1, .u8, .ro, (.c 0), .any, .none, 0, 0⟩]⟩  -- TC_STATE

def fam7C40 : Fam := ⟨0x7C40, 1, 1, 0, 0, [
  ⟨0x01, 1, 8, .u16, .rs, (.c 0), (.rg (0) (65535)), .none, 0, 0⟩,  -- TIN_FILT
  ⟨0x09, 1, 1, .u8, .rs, (.c 0), .any, .none, 0, 0⟩,  -- TIN_FILT_US
  ⟨0x0A, 1, 1, .u8, .ro, (.c 0), .any, .none, 0, 0⟩,  -- TIN_LEVEL
  ⟨0x0B, 1, 1, .u8, .ro, (.c 0), .any, .none, 0, 0⟩,  -- TOUT_LEVEL
  ⟨0x0C, 1, 1, .u32, .rc, (.c 0), .any, .none, 0, 0⟩]⟩  -- CASCADE_STOPS

def fam7E00 : Fam := ⟨0x7E00, 1, 4, 0, 0, [
  ⟨0x01, 1, 1, .u8, .rs, (.firstElse 3 0), (.rg (0) (3)), .none, 0, 0⟩,  -- UART_MODE
  ⟨0x02, 1, 1, .u32, .rs, (.firstElse 115200 31250), (.rg (300) (3000000)), .none, 0, 0⟩,  -- BAUD
  ⟨0x03, 1, 1, .u32, .ro, (.firstElse 115200703 31249936), .any, .none, 0, 0⟩,  -- BAUD_ACTUAL
  ⟨0x04, 1, 1, .u8, .rs, (.c 8), (.set [7, 8, 9]), .none, 0, 0⟩,  -- DATA_BITS
  ⟨0x05, 1, 1, .u8, .rs, (.c 0), (.rg (0) (2)), .none, 0, 0⟩,  -- PARITY
  ⟨0x06, 1, 1, .u8, .rs, (.c 1), (.set [1, 2]), .none, 0, 0⟩,  -- STOP_BITS
  ⟨0x07, 1, 1, .u8, .rs, (.firstElse 1 0), (.rg (0) (1)), .none, 0, 0⟩,  -- FLOW
  ⟨0x08, 1, 1, .u8, .rs, (.c 17), .any, .none, 0, 0⟩,  -- XON_CHAR
  ⟨0x09, 1, 1, .u8, .rs, (.c 19), .any, .none, 0, 0⟩,  -- XOFF_CHAR
  ⟨0x0A, 1, 1, .u16, .rs, (.c 65535), (.rgOr 0xFFFF 768 2047), .none, 0, 0⟩,  -- RX_RING
  ⟨0x0B, 1, 1, .u16, .rs, (.c 65535), (.rgOr 0xFFFF 768 2047), .none, 0, 0⟩,  -- TX_RING
  ⟨0x0C, 1, 1, .u16, .rs, (.c 0), .any, .none, 0, 0⟩,  -- RX_TIMEOUT
  ⟨0x0D, 1, 1, .b1, .rs, (.c 0), (.rg 0 1), .none, 0, 0⟩,  -- SLEEP_RX
  ⟨0x0E, 1, 1, .u8, .rs, (.c 0), (.rg (0) (2)), .none, 0, 0⟩,  -- WAKE_KIND
  ⟨0x0F, 1, 1, .u8, .rs, (.c 0), .any, .none, 0, 0⟩,  -- WAKE_ADDR
  ⟨0x10, 1, 1, .u8, .rs, (.c 0), .any, .none, 0, 0⟩,  -- WAKE_BYTE
  ⟨0x11, 1, 1, .u8, .rs, (.c 255), .any, .none, 0, 0⟩,  -- WAKE_MASK
  ⟨0x12, 1, 1, .b1, .ro, (.c 0), .any, .none, 0, 0⟩,  -- TX_PAUSED
  ⟨0x13, 1, 1, .b1, .wo, (.c 0), (.rg 1 1), .none, 0, 0⟩,  -- TX_RESUME
  ⟨0x14, 1, 1, .u32, .rc, (.c 0), .any, .none, 0, 0⟩,  -- RX_CHARS
  ⟨0x15, 1, 1, .u32, .rc, (.c 0), .any, .none, 0, 0⟩,  -- FRAMING_ERRORS
  ⟨0x16, 1, 1, .u32, .rc, (.c 0), .any, .none, 0, 0⟩,  -- PARITY_ERRORS
  ⟨0x17, 1, 1, .u32, .rc, (.c 0), .any, .none, 0, 0⟩,  -- RX_OVERRUNS
  ⟨0x18, 1, 1, .u32, .rc, (.c 0), .any, .none, 0, 0⟩,  -- BREAKS
  ⟨0x19, 1, 1, .u32, .rc, (.c 0), .any, .none, 0, 0⟩,  -- FALSE_STARTS
  ⟨0x1A, 1, 1, .u32, .rc, (.c 0), .any, .none, 0, 0⟩,  -- SLEEP_LOST
  ⟨0x1B, 1, 1, .u8, .ro, (.c 0), .any, .none, 0, 0⟩]⟩  -- RX_FIFO_FILL

def fam7E10 : Fam := ⟨0x7E10, 1, 4, 0, 0, [
  ⟨0x01, 1, 1, .u32, .rc, (.c 0), .any, .none, 0, 0⟩,  -- HM_FRAMES_RX
  ⟨0x02, 1, 1, .u32, .rc, (.c 0), .any, .none, 0, 0⟩,  -- HM_FRAMES_TX
  ⟨0x03, 1, 1, .u32, .rc, (.c 0), .any, .none, 0, 0⟩]⟩  -- HM_ABORTS

def fam8000 : Fam := ⟨0x8000, 1, 1, 0, 0, [
  ⟨0x01, 1, 1, .u8, .ro, (.c 4), .any, .none, 0, 0⟩,  -- POD_SPARES
  ⟨0x02, 1, 1, .u8, .ro, (.c 4), .any, .none, 0, 0⟩,  -- CORE_SPARES
  ⟨0x03, 1, 1, .u16, .ro, (.c 3855), .any, .none, 0, 0⟩,  -- SPARE_MAP
  ⟨0x04, 1, 1, .u8, .ro, (.c 0), .any, .none, 0, 0⟩,  -- POSITIONS_LOST
  ⟨0x05, 1, 1, .u32, .rc, (.c 0), .any, .none, 0, 0⟩,  -- FAILOVERS
  ⟨0x06, 1, 1, .u32, .rc, (.c 0), .any, .none, 0, 0⟩,  -- CROSS_CHECKS
  ⟨0x07, 1, 1, .u32, .rc, (.c 0), .any, .none, 0, 0⟩,  -- CROSS_MISMATCHES
  ⟨0x08, 1, 1, .u32, .rc, (.c 0), .any, .none, 0, 0⟩,  -- CHECKS_SKIPPED
  ⟨0x09, 1, 1, .u32, .rc, (.c 0), .any, .none, 0, 0⟩,  -- KERNEL_RESTARTS
  ⟨0x0A, 1, 1, .u32, .co, (.c 4000), .any, .none, 0, 0⟩,  -- WATCHDOG_NS
  ⟨0x0B, 1, 1, .b1, .wo, (.c 0), (.rg 1 1), .none, 0, 0⟩,  -- RESTORE
  ⟨0x0C, 1, 1, .u16, .rs, (.c 60), (.rgOr 0 10 3600), .none, 0, 0⟩]⟩  -- SPARE_TEST_S

def fam8100 : Fam := ⟨0x8100, 1, 36, 0, 0, [
  ⟨0x01, 1, 1, .u8, .ro, (.c 0), .any, .none, 0, 0⟩,  -- UNIT_STATE
  ⟨0x02, 1, 1, .u32, .rc, (.c 0), .any, .none, 0, 0⟩,  -- FAULTS
  ⟨0x03, 1, 1, .u32, .ro, (.c 0), .any, .none, 0, 0⟩,  -- LAST_SEQ
  ⟨0x04, 1, 1, .u8, .ro, (.c 255), .any, .none, 0, 0⟩,  -- REPLACED_BY
  ⟨0x05, 1, 1, .b1, .wo, (.c 0), (.rg 1 1), .none, 0, 0⟩,  -- READMIT
  ⟨0x06, 1, 1, .b1, .wo, (.c 0), (.rg 1 1), .none, 0, 0⟩,  -- RETIRE
  ⟨0x07, 1, 1, .u32, .rc, (.c 0), .any, .none, 0, 0⟩]⟩  -- TESTS

def fam8140 : Fam := ⟨0x8140, 1, 20, 0, 0, [
  ⟨0x01, 1, 1, .u8, .ro, (.c 0), .any, .none, 0, 0⟩,  -- UNIT_STATE
  ⟨0x02, 1, 1, .u32, .rc, (.c 0), .any, .none, 0, 0⟩,  -- FAULTS
  ⟨0x03, 1, 1, .u32, .ro, (.c 0), .any, .none, 0, 0⟩,  -- LAST_SEQ
  ⟨0x04, 1, 1, .u8, .ro, (.c 255), .any, .none, 0, 0⟩,  -- REPLACED_BY
  ⟨0x05, 1, 1, .b1, .wo, (.c 0), (.rg 1 1), .none, 0, 0⟩,  -- READMIT
  ⟨0x06, 1, 1, .b1, .wo, (.c 0), (.rg 1 1), .none, 0, 0⟩,  -- RETIRE
  ⟨0x07, 1, 1, .u32, .rc, (.c 0), .any, .none, 0, 0⟩]⟩  -- TESTS

def fam8180 : Fam := ⟨0x8180, 1, 64, 0, 0, [
  ⟨0x01, 1, 1, .u8, .ro, (.c 0), .any, .none, 0, 0⟩,  -- BANK_HEALTH
  ⟨0x02, 1, 1, .u32, .ro, (.c 0), .any, .none, 0, 0⟩,  -- SCRUB_AGE
  ⟨0x03, 1, 1, .u32, .rc, (.c 0), .any, .none, 0, 0⟩]⟩  -- SCRUB_PASSES

def fam8200 : Fam := ⟨0x8200, 1, 1, 0, 0, [
  ⟨0x01, 1, 1, .u8, .ro, (.c 0), .any, .none, 0, 0⟩,  -- THERM_STATE
  ⟨0x02, 1, 1, .u8, .ro, (.c 0), .any, .none, 0, 0⟩,  -- HOTTEST_Q
  ⟨0x03, 1, 1, .u8, .ro, (.c 0), .any, .none, 0, 0⟩,  -- DT
  ⟨0x04, 1, 1, .u8, .rs, (.c 6), (.rg (1) (10)), .none, 0, 0⟩,  -- DT_MAX
  ⟨0x05, 1, 1, .u16, .co, (.c 32), .any, .none, 0, 0⟩,  -- DWELL
  ⟨0x06, 1, 1, .u8, .co, (.c 95), .any, .none, 0, 0⟩,  -- WARN_C
  ⟨0x07, 1, 1, .u8, .co, (.c 100), .any, .none, 0, 0⟩,  -- DERATE_C
  ⟨0x08, 1, 1, .u8, .co, (.c 108), .any, .none, 0, 0⟩,  -- CRIT_C
  ⟨0x09, 1, 1, .u8, .co, (.c 4), .any, .none, 0, 0⟩,  -- HYST_C
  ⟨0x0A, 1, 1, .u32, .rc, (.c 0), .any, .none, 0, 0⟩]⟩  -- CRIT_EVALS

def fam8210 : Fam := ⟨0x8210, 1, 4, 0, 0, [
  ⟨0x01, 1, 1, .i16, .ro, (.c 0), .any, .none, 0, 0⟩,  -- TEMP
  ⟨0x02, 1, 1, .u8, .ro, (.c 0), .any, .none, 0, 0⟩,  -- Q_STATE
  ⟨0x03, 1, 1, .i16, .rc, (.c 32768), .any, .none, 0, 0⟩,  -- TEMP_MAX
  ⟨0x04, 1, 1, .u64, .ro, (.c 0), .any, .none, 0, 0⟩]⟩  -- LAST_CHANGE

def fam8220 : Fam := ⟨0x8220, 1, 1, 0, 0, [
  ⟨0x01, 1, 1, .i16, .rs, (.c 8192), (.rg (0) (32767)), .none, 0, 0⟩,  -- SLACK_LOW
  ⟨0x02, 1, 1, .i16, .rs, (.c 13107), (.rg (0) (32767)), .none, 0, 0⟩,  -- SLACK_HIGH
  ⟨0x03, 1, 1, .u16, .ro, (.c 800), .any, .none, 0, 0⟩,  -- VDD_REQ
  ⟨0x04, 1, 1, .u16, .ro, (.c 0), .any, .none, 0, 0⟩,  -- VDD_READ
  ⟨0x05, 1, 1, .u16, .rs, (.c 620), (.mult 5 620 880), .none, 0, 0⟩,  -- VDD_MIN
  ⟨0x06, 1, 1, .u16, .rs, (.c 880), (.mult 5 700 880), .none, 0, 0⟩,  -- VDD_MAX
  ⟨0x07, 1, 1, .u16, .rs, (.c 680), (.mult 5 620 880), .none, 0, 0⟩,  -- VDD_IDLE
  ⟨0x08, 1, 1, .u8, .ro, (.c 0), .any, .none, 0, 0⟩,  -- DS
  ⟨0x09, 1, 1, .u8, .rs, (.c 4), (.rg (0) (8)), .none, 0, 0⟩,  -- DS_MAX
  ⟨0x0A, 1, 1, .u32, .rc, (.c 0), .any, .none, 0, 0⟩,  -- STEPS_UP
  ⟨0x0B, 1, 1, .u32, .rc, (.c 0), .any, .none, 0, 0⟩,  -- STEPS_DOWN
  ⟨0x0C, 1, 1, .u32, .rc, (.c 0), .any, .none, 0, 0⟩,  -- AVS_ERRORS
  ⟨0x0D, 1, 1, .u8, .rs, (.c 0), (.rg (0) (1)), .none, 0, 0⟩,  -- CTRL_MODE
  ⟨0x0E, 1, 1, .u16, .rs, (.c 800), (.mult 5 620 880), .none, 0, 0⟩]⟩  -- VDD_FIXED

def fam8230 : Fam := ⟨0x8230, 1, 1, 0, 0, [
  ⟨0x01, 1, 1, .u8, .wo, (.c 0), (.rg (1) (2)), .none, 0, 0⟩,  -- RESET_REQ
  ⟨0x02, 1, 1, .b1, .wo, (.c 0), (.rg 1 1), .none, 0, 0⟩,  -- SLEEP
  ⟨0x03, 1, 1, .u8, .rs, (.c 1), (.mask 0x1F), .none, 0, 0⟩,  -- WAKE_SRC
  ⟨0x04, 1, 1, .u8, .ro, (.c 0), .any, .none, 0, 0⟩,  -- WAKE_CAUSE
  ⟨0x05, 1, 1, .u32, .rc, (.c 0), .any, .none, 0, 0⟩,  -- SLEEP_COUNT
  ⟨0x06, 1, 1, .u32, .ro, (.c 0), .any, .none, 0, 0⟩,  -- SLEEP_MS
  ⟨0x07, 1, 1, .u32, .ro, (.c 0), .any, .none, 0, 0⟩,  -- START_US
  ⟨0x08, 1, 1, .u8, .ro, (.c 0), .any, .none, 0, 0⟩,  -- MON_FLAGS
  ⟨0x09, 1, 1, .b1, .ro, (.c 1), .any, .none, 0, 0⟩]⟩  -- THERM_N_LEVEL

def famF000 : Fam := ⟨0xF000, 1, 1, 0, 0, [
  ⟨0x01, 1, 1, .b1, .ro, (.c 0), .any, .none, 0, 0⟩,  -- FUSE_VALID
  ⟨0x02, 1, 1, .u32, .co, (.c 0), .any, .none, 0, 0⟩,  -- FUSE_CRC
  ⟨0x03, 1, 1, .u16, .co, (.c 0), .any, .none, 0, 0⟩]⟩  -- REPAIR_TOTAL

def famF001 : Fam := ⟨0xF001, 1, 1, 0, 0, [
  ⟨0x01, 1, 1, .u64, .co, (.c 0xFFFFFFFFF), .any, .none, 0, 0⟩,  -- POD_GOOD
  ⟨0x02, 1, 1, .u32, .co, (.c 0xFFFFF), .any, .none, 0, 0⟩,  -- CORE_GOOD
  ⟨0x03, 1, 1, .u64, .co, (.c 0xFFFFFFFFFFFFFFFF), .any, .none, 0, 0⟩]⟩  -- BANK_GOOD

def famF002 : Fam := ⟨0xF002, 1, 1, 0, 0, [
  ⟨0x01, 1, 1, .b1, .co, (.c 1), .any, .none, 0, 0⟩,  -- DEBUG_LOCK
  ⟨0x02, 1, 1, .b1, .co, (.c 1), .any, .none, 0, 0⟩]⟩  -- BSCAN

/-- The rows of every family. -/
def dictionary : List Fam :=
  [fam0000, fam0010, fam0020, fam0100, fam0110, fam0300, fam0301, fam1000, fam1020, fam1100, fam1140, fam2000] ++
  [fam2010, fam2020, fam2030, fam2040, fam2050, fam2051, fam3000, fam3400, fam3800, fam4000, fam4800, fam4810] ++
  [fam4820R, fam4820, fam4822, fam4823, fam4830, fam4840, fam4850, fam4860, fam4870, fam4C00, fam4C10, fam4C40] ++
  [fam5000, fam5001, fam5002, fam5003, fam5004, fam5300, fam5800, fam5801, fam5A00, fam5A01, fam5C00, fam5E00] ++
  [fam5F00, fam6000, fam6100, fam6110, fam6800, fam6801, fam6810, fam6820, fam6830, fam6840, fam6850, fam7000] ++
  [fam7100, fam7400, fam7410, fam7420, fam7440, fam7500, fam7510, fam7580, fam7800, fam7810, fam7840, fam7900] ++
  [fam7C00, fam7C40, fam7E00, fam7E10, fam8000, fam8100, fam8140, fam8180, fam8200, fam8210, fam8220, fam8230] ++
  [famF000, famF001, famF002]

/-- The key of an object instance in the maps of State: index, sub-index, window instance. -/
def okey (idx sub inst : Nat) : Nat := (idx * 256 + sub) * 131072 + inst

/-- The family instance number of an index, if the family covers it. -/
def Fam.inst? (f : Fam) (idx : Nat) : Option Nat :=
  if f.base ≤ idx ∧ (idx - f.base) % f.stride = 0 ∧ (idx - f.base) / f.stride < f.count then
    some ((idx - f.base) / f.stride)
  else none

/-- The position of a sub-index among a row's repeats. -/
def ObjDef.pos? (o : ObjDef) (sub : Nat) : Option Nat :=
  if o.sub ≤ sub ∧ (sub - o.sub) % o.step = 0 ∧ (sub - o.sub) / o.step < o.count then
    some ((sub - o.sub) / o.step)
  else none

/-- A found object: its family instance n and repeat position m, its row, its place in the program record. -/
structure ObjRef where
  n : Nat
  m : Nat
  row : ObjDef
  recAt : Nat
deriving DecidableEq, Repr

/-- The row of a list at a sub-index. -/
def rowAt (sub : Nat) : List ObjDef → Option (ObjDef × Nat)
  | [] => none
  | o :: r => match o.pos? sub with
    | some m => some (o, m)
    | none => rowAt sub r

/-- Look an object up among families. -/
def findIn (idx sub : Nat) : List Fam → Option ObjRef
  | [] => none
  | f :: r => match f.inst? idx with
    | none => findIn idx sub r
    | some n => match rowAt sub f.objs with
      | some (o, m) => some ⟨n, m, o, f.recBase + f.recStride * n + o.recOff + o.recStep * m⟩
      | none => findIn idx sub r

/-- The object at index.sub, if it exists at a sub-index other than 0x00 (R101, R150). -/
def findObj (idx sub : Nat) : Option ObjRef := findIn idx sub dictionary

/-- The greatest sub-index of a row list. -/
def topSub (l : List ObjDef) : Nat := l.foldl (fun a o => max a (o.sub + o.step * (o.count - 1))) 0

/-- R101: the highest sub-index defined at an index; none where the index does not exist (R150). -/
def highestSub (idx : Nat) : Option Nat :=
  dictionary.foldl (fun a f => match f.inst? idx with
    | none => a
    | some _ => some (max (a.getD 0) (topSub f.objs))) none

/-- The default of an object instance (04 R105). -/
def dfltOf (o : ObjDef) (n m inst : Nat) : Nat := match o.dflt with
  | .c v => v
  | .inst => n
  | .firstElse a b => if n = 0 then a else b
  | .perSub l rest => nth rest l m
  | .cntMode => if inst < 128 then 3 else 0

/-- The default value at an object key. -/
def defaultAt (key : Nat) : Nat :=
  match findObj (key / 131072 / 256) (key / 131072 % 256) with
  | some r => dfltOf r.row r.n r.m (key % 131072)
  | none => 0

/-- Byte count of a scalar type (R102); 0 for STR and DOM. -/
def Ty.size : Ty → Nat
  | .b1 | .u8 => 1 | .u16 | .i16 => 2 | .u32 | .i32 => 4 | .u64 | .i64 => 8 | .str _ | .dom _ => 0

/-- Whether a type is signed. -/
def Ty.signed : Ty → Bool
  | .i16 | .i32 | .i64 => true
  | _ => false

/-- The greatest value of a counter of the type (R737). -/
def Ty.top (t : Ty) : Nat := if t.signed then 2 ^ (8 * t.size - 1) - 1 else 2 ^ (8 * t.size) - 1

/-- Matrix source codes (08 R244). -/
def srcCodeOk (v : Nat) : Bool := v ≤ 31 || (128 ≤ v && v ≤ 247)

/-- Matrix destination codes (08 R245). -/
def destCodeOk (v : Nat) : Bool :=
  v == 0 || v == 8 || (0x10 ≤ v && v < 0x50 && v % 16 ≤ 8) ||
  (0x50 ≤ v && v ≤ 0x53) || (0x58 ≤ v && v ≤ 0x5B) || v == 0x60 || v == 0x61 || v == 0x68 || v == 0x69 ||
  (0x70 ≤ v && v ≤ 0x73) || (0x78 ≤ v && v ≤ 0x7D) || (0x80 ≤ v && v ≤ 0x83)

/-- The Range test of R103 and R738 on the raw value v of an object of the given size and sign. CH_COUNT 0, the reset value of a
stream (17 R547), is taken while EN is 0 alone. DESIGN CHOICE: log entry 67. -/
def rngOk (t : Ty) (g : Rng) (n inst v : Nat) : Bool :=
  let x : Int := if t.signed then sgn (8 * t.size) v else v
  match g with
  | .any => true
  | .rg lo hi => lo ≤ x && x ≤ hi
  | .set l => l.contains v
  | .rgOr a lo hi => v == a || (lo ≤ v && v ≤ hi)
  | .mask m => v ||| m == m
  | .stream m => v ||| m == m && (([1, 2, 4, 8, 16].contains (bitsOf v 12 8)) || (bitsOf v 12 8 == 0 && !bitOf v 15))
  | .hilo => v / 256 ≤ 127 && v % 256 ≤ 127
  | .mult k lo hi => v % k == 0 && lo ≤ v && v ≤ hi
  | .pow2 z => (z && v == 0) || [8, 16, 32, 64, 128, 256, 512, 1024, 2048, 4096].contains v
  | .srcCode => srcCodeOk v
  | .destCode => destCodeOk v
  | .owner => v == 0xFF || (0x40 ≤ v && v ≤ 0x53) || (0xC0 ≤ v && v ≤ 0xC7)
  | .wtDir => v / 2 ^ 28 == 0 && bitsOf v 27 19 ≤ 256
  | .prescale => 1 ≤ v / 65536
  | .cntMode => if inst < 128 then v == 3 else v ≤ 2
  | .period => 1 ≤ v && (n != 0 || v == 1)

/-- R103 for a B1: only 0x00 and 0x01. -/
def b1Ok (t : Ty) (v : Nat) : Bool := t != .b1 || v ≤ 1

end Sys2Proof.Machine
end

