-- ==== Sys2Proof/Config.lean ====
section
/-!
DEFINITION. Sys2Proof/Config.lean: what the implementation fixes and the spec leaves open, and the free values.
None of these constants has a body, so nothing can be proved of their values.
-/
namespace Sys2Proof

/-- Free bits: the k-th open one-bit choice the device meets. DESIGN CHOICE: log entry 3. -/
opaque Config.freeBit : Nat → Bool

/-- Free numbers: the k-th open value the device meets. DESIGN CHOICE: log entry 3. -/
opaque Config.freeNat : Nat → Nat

/-- Fused and ROM values of the identity objects (05 R157): SILICON_REV, FW_MINOR, FW_PATCH, UNIQUE_ID, DICT_CRC.
DESIGN CHOICE: log entry 4. -/
opaque Config.siliconRev : Nat
opaque Config.fwMinor : Nat
opaque Config.fwPatch : Nat
opaque Config.uniqueId : Nat
opaque Config.dictCrc : Nat

/-- Fitted LPDDR5 bytes and second rank, detected at start-up (12 R332, R363). DESIGN CHOICE: log entry 4. -/
opaque Config.fittedBytes : Nat
opaque Config.twoRanks : Bool

/-- Fused values of Husk and of the banks: FUSE_CRC (23 R706), columns in use by bank (13 R371).
DESIGN CHOICE: log entry 4. -/
opaque Config.fuseCrc : Nat
opaque Config.repairs : Nat → Nat

/-- Layouts that 13 R369 and 12 R348 leave open: the word of the head store that holds word w of the head of region r,
the word of the stream pool that holds word w of the buffer of a stream (voice serial, oscillator), the word of a comb
store that holds a word of the line of a filter. DESIGN CHOICE: log entry 57. -/
opaque Config.headWord : Nat → Nat → Nat
opaque Config.streamWord : Nat → Nat → Nat → Nat
opaque Config.combWord : Nat → Nat → Nat

/-- The voltage on pin CVREF (19 R582), from 1.0 V, in µV above it. DESIGN CHOICE: log entry 14. -/
opaque Config.cvref : Nat

/-- The converters (18 R560): the sample of an input channel, of which 32 bits count, from the input frames, newest first, each with
the engine samples since it came, and the tracked ratio. DESIGN CHOICE: log entry 14. -/
opaque Config.asrc : (frames : List (Int × List Nat)) → (ratio : Nat) → (channel : Nat) → Nat

/-- The interpolators (19 R575): x in Q1.31 at step j of a ratio, of INTERP, from the codes taken, newest first.
DESIGN CHOICE: log entry 64. -/
opaque Config.interp : (interp ratio j : Nat) → List Int → Int

end Sys2Proof
end

