-- ==== Sys2Proof/Syntax.lean ====
section
/-!
DEFINITION. Sys2Proof/Syntax.lean: the commands of the block, one constructor of Instr per row of the opcode table,
with the operand types they carry. Marrow instructions name the core that issues them and the fields of their word
(15 R439); `MemSt` is the memory status that a Gourd access meets (13 R373-R377).
-/
namespace Sys2Proof

/-- What a Gourd access meets: no error, a corrected error (13 R373), an uncorrectable error (R374), or a spine-port
conflict of a direct store (R376, R377). -/
inductive MemSt | ok | corrected | uncorrectable | conflict
deriving DecidableEq, Repr

/-- Fields of a format-M word (15 R439): register field, address field, mode, D, immediate. -/
structure MemOp where
  r : BitVec 5
  a : BitVec 3
  mode : BitVec 2
  direct : Bool
  imm : BitVec 12
deriving DecidableEq, Repr

/-- Fields of a format-A word: d, s, a, mode 1, D. -/
structure AtomOp where
  d : BitVec 5
  s : BitVec 5
  a : BitVec 3
  upd : Bool
  direct : Bool
deriving DecidableEq, Repr

/-- Fields of a VMAC word (15 R458): sources, accumulator, lane k, and the bits I, Z, L. -/
structure MacOp where
  va : BitVec 4
  vb : BitVec 4
  ac : BitVec 2
  k : BitVec 3
  i : Bool
  z : Bool
  l : Bool
deriving DecidableEq, Repr

/-- Fields of a VWMAC word (15 R459): sources, AC2:AC3 instead of AC0:AC1, and the bits Z, H. -/
structure WMacOp where
  va : BitVec 4
  vb : BitVec 4
  hiPair : Bool
  z : Bool
  h : Bool
deriving DecidableEq, Repr

/-- Fields of a VEXTR word (15 R460). -/
structure ExtrOp where
  vd : BitVec 4
  ac : BitVec 2
  k : BitVec 5
  w : Bool
  h : Bool
  c : Bool
deriving DecidableEq, Repr

/-- A service frame (04 R109): source node and, on a chain port, the offset of its marker from its slot in ps
(17 R531, R534), SEQ, flags, index, sub-index and payload bytes. -/
structure Frame where
  node : Nat
  off : Int
  seq : Nat
  flags : Nat
  idx : Nat
  sub : Nat
  payload : List Byte
deriving DecidableEq, Repr

/-- What a port measures at a received marker: the fraction of the media position (02 R55); symbols to count in CODE_ERRORS since the marker before (17 R507); its
estimate of the ratio of its reference to the head's, in 10^-12 (R532); the device's slots at whose start a forwarded
frame occupies the lane, each with the picoseconds from the estimated start to that frame's end (R533). -/
structure Marker where
  frac : Nat
  codeErrors : Nat
  ratio : Nat
  late : List (Nat × Nat)
deriving DecidableEq, Repr

/-- The ratio estimate of a converter in Q8.24, and whether it has stayed within ±1 ppm for 1,024 input frames (18 R560). -/
structure Estimate where
  ratio : Nat
  stable : Bool
deriving DecidableEq, Repr

/-- A BLOCK-READ request, and the errors that its reads of Tuber or Gourd bytes meet: the address, and whether it is
uncorrectable (12 R336, 13 R373). -/
structure BlockFrame where
  frame : Frame
  errs : List (Nat × Bool)
deriving DecidableEq, Repr

/-- What training step 4 measures on lane 0 or the only lane (17 R510): the round trip in UI, the partner's TURN in symbol
times. -/
structure Trip where
  trip : Nat
  turn : Nat
deriving DecidableEq, Repr

/-- Training step 4 (17 R508, R509): the mask of lanes that completed it, whether the partner has LANES_CFG 2, what it
measured. -/
structure Trained where
  lanes : Nat
  partner2 : Bool
  trip : Trip
deriving DecidableEq, Repr

/-- What port `port` meets in the device Link cycle that ends: the training step 4 that completed in it; the failed lane
held TS2 lock for the cycle (R542); the head's slots that a forwarded frame delays, as in `Marker` (R533). -/
structure PortCycle where
  port : Nat
  trained : Option Trained
  locked : Bool
  late : List (Nat × Nat)
deriving DecidableEq, Repr

/-- A device Link cycle that ends: the fraction of the media position (02 R55), what the Link ports met, the addresses of
writes that a Gourd bank answered with CONFLICT and their masters repeated in the cycle (13 R376, R377), the errors that reads
of Pods, the output mixer and Root meet in Gourd, each an address and whether it is uncorrectable (13 R373, R374). -/
structure CycleEnd where
  frac : Nat
  ports : List PortCycle
  conflicts : List Nat
  met : List (Nat × Bool)
deriving DecidableEq, Repr

/-- The bytes of a service frame whose CRC or length fails: its port, and on a chain the node and the offset of its
marker from its slot in ps (17 R534). -/
structure BadFrame where
  port : Nat
  node : Nat
  off : Int
  bytes : List Byte
deriving DecidableEq, Repr

/-- What a WRITE's frame carries beside its object and value: source node, offset of its marker, SEQ, flags. -/
structure Hdr where
  node : Nat
  off : Int
  seq : Nat
  flags : Nat
deriving DecidableEq, Repr

/-- The window selectors (05 R152, 09 R258, 10 R305, 16 R501). -/
inductive Sel | thread | counter | queue | region | program | voice
deriving DecidableEq, Repr

/-- The commands, in the order of spec/opcode_table.json. -/
inductive Instr
  /-- READ (R104): Service request 0x01 returns the value of an object according to its access code, clearing an RC object atomically. -/
  | read (p : Nat) (f : Frame)
  /-- WRITE (R104): Service request 0x02 writes an object that has no behaviour of its own: RS values enter staging, and RW values are arbitrated at the end of the Link cycle. -/
  | write (p : Nat) (f : Frame)
  /-- BLOCK_READ (R119): Service request 0x03 returns up to COUNT bytes of a DOM object from OFFSET. -/
  | blockRead (p : Nat) (f : BlockFrame)
  /-- BLOCK_WRITE (R118): Service request 0x04 carries one segment of a DOM transfer; the segment with LAST set applies the whole transfer. -/
  | blockWrite (p : Nat) (f : Frame)
  /-- COMMIT (R133): Service request 0x05 checks the staging version, prepares it and schedules its switch for a boundary. -/
  | commit (p : Nat) (f : Frame) (errs : List (Nat × Bool))
  /-- REVERT (R134): Service request 0x06 checks the previous version and schedules a switch back to it. -/
  | revert (p : Nat) (f : Frame) (errs : List (Nat × Bool))
  /-- ABORT (R132): Service request 0x07 discards the open staging version or the pending switch. -/
  | abort (p : Nat) (f : Frame)
  /-- SUBSCRIBE (R121): Service request 0x08 registers an object for notification to the requesting port, on change or periodically. -/
  | subscribe (p : Nat) (f : Frame)
  /-- UNSUBSCRIBE (R116): Service request 0x09 cancels one subscription of the port, or all of them. -/
  | unsubscribe (p : Nat) (f : Frame)
  /-- EVENT (R318): Service request 0x0A stamps the frame's UMP packets, tests them and matches them to parts for entry into part event queues. -/
  | event (p : Nat) (f : Frame)
  /-- UNFREEZE (R144): Service request 0x0B unfreezes a port or Marrow core, or records a self-unfreeze request. -/
  | unfreeze (p : Nat) (f : Frame)
  /-- IDENTIFY (R124): Service request 0x0C returns the 24-byte identity payload. -/
  | identify (p : Nat) (f : Frame)
  /-- SERVICE_FRAME_DISCARD (R110): A received service frame whose CRC fails or whose length is wrong is discarded without a response, and CRC_ERRORS increments. -/
  | serviceFrameDiscard (f : BadFrame)
  /-- SELF_UNFREEZE (R145): A frozen port holding SV, with no other supervisor available, unfreezes itself 100 ms after its own UNFREEZE request. -/
  | selfUnfreeze (p : Nat)
  /-- PROTO_PERIOD_END (R140): Each 64-cycle period ends and every port's protocol-error count restarts at 0. -/
  | protoPeriodEnd
  /-- LINK_CYCLE_END (R514): A device Link cycle boundary falls, either from the time master's marker or after 3,072 XT48 periods, and the device originates its cycle headers. -/
  | linkCycleEnd (c : CycleEnd)
  /-- WINDOW_SELECT (R152): A write of a window selector (THREAD_SEL, QUEUE_SEL, REGION_SEL, COUNTER_SEL, EDIT_PROGRAM, VOICE_SEL) sets the requesting port's own selection at execution. -/
  | windowSelect (p : Nat) (h : Hdr) (w : Sel) (v : Nat)
  /-- MEDIA_START (R43): A write of 1 to MEDIA_RUN while the media is stopped begins locking the media synthesiser to MEDIA_SRC. -/
  | mediaStart (p : Nat) (h : Hdr)
  /-- MEDIA_STOP (R46): A write of 0 to MEDIA_RUN while the media runs stops it at the next boundary, and the outputs, voices, queues and streams end at boundary m+2. -/
  | mediaStop (p : Nat) (h : Hdr)
  /-- MEDIA_START_ABANDON (R44): A write of 0 to MEDIA_RUN while the media is starting abandons the start. -/
  | mediaStartAbandon (p : Nat) (h : Hdr)
  /-- MEDIA_LOCK_DECLARED (R49): The synthesiser holds within ±1 ppm for 64 periods, MEDIA_LOCK becomes 1, and during a start boundary 0 follows. -/
  | mediaLockDeclared
  /-- LOCK_TIMEOUT (R44): An external reference fails to lock within its maximum lock time during a start, and the start falls back to the crystal or keeps waiting. -/
  | lockTimeout
  /-- REFERENCE_LOSS (R51): The reference shows no edge for 4 expected periods, or no marker for 4 Link cycles, and the media enters holdover. -/
  | referenceLoss
  /-- REFERENCE_RETURN (R52): The selected reference returns during holdover, and the synthesiser slews back to it. -/
  | referenceReturn
  /-- REF_FALLBACK_SWITCH (R52): After 8 ms of holdover with REF_FALLBACK set, the synthesiser switches to the crystal. -/
  | refFallbackSwitch
  /-- REF_RESELECT (R52): A write of REF_RESELECT returns the synthesiser from the fallback to MEDIA_SRC. -/
  | refReselect (p : Nat) (h : Hdr)
  /-- LINK_TIME_SET (R54): A write sets Link time when the device is the time master, and is answered BUSY otherwise. -/
  | linkTimeSet (p : Nat) (h : Hdr) (v : Nat)
  /-- BOUNDARY (R35): A block boundary: block k leaves the output mixer, checkpoints and sealed writes are applied, and window k opens for block k+2. -/
  | boundary
  /-- DEFERRAL_TIMEOUT (R292): A note-on that would wait beyond MAX_WAIT blocks is refused. -/
  | deferralTimeout (p : Nat)
  /-- THERMAL_EVAL (R696): The thermal monitor evaluates the quadrant states and d_t at each boundary, or every 1 ms while the media is stopped. -/
  | thermalEval (t0 : Int) (t1 : Int) (t2 : Int) (t3 : Int)
  /-- ENV_SEGMENT_END (R234): An envelope segment's sample count reaches N, and the envelope completes the segment, holds, loops or ends. -/
  | envSegmentEnd (n : Nat) (e : Nat)
  /-- FADE_LANE_END (R297): A fade lane's ramp reaches its last sample, S + F − 1, and the lane voice ends. -/
  | fadeLaneEnd (n : Nat)
  /-- SEAL (R74): A unit's seal lands at the Stalk commit port: pending entries are applied or held, commit-adds land, and queue reads retire. -/
  | seal (u : Nat) (ticks : Int)
  /-- CROSS_CHECK_RESULT (R651): The checker's recomputed result reaches the commit port and releases or fails the checked Pod's seal. -/
  | crossCheckResult (u : Nat) (equal : Bool)
  /-- EVENT_QUEUE_ENTRY (R318): Items of an EVENT frame that waited for queue room enter their part event queues together, and the response is sent. -/
  | eventQueueEntry (p : Nat)
  /-- CYCLE_HEADER_RX (R519): A cycle marker and header arrive on a port, giving credits, chain commands and, from the time master, an anchor. -/
  | cycleHeaderRx (l : Nat) (h : List Byte) (m : Marker)
  /-- DATA_FRAME_RX (R527): A data frame's items are written to the I/O ring it names. -/
  | dataFrameRx (l : Nat) (node : Nat) (off : Int) (b : List Byte)
  /-- ISO_FRAME_RX (R526): An isochronous frame's words are written to the matching input stream's ring, or the frame is lost. -/
  | isoFrameRx (l : Nat) (node : Nat) (off : Int) (b : List Byte)
  /-- LINK_TRAINING_START (R508): An enabled port that is down begins sending TS1 training sets. -/
  | linkTrainingStart (l : Nat)
  /-- TRAINING_TIMEOUT (R509): No lane completes step 4 within 2,000 µs, and training restarts. -/
  | trainingTimeout (l : Nat)
  /-- LINK_UP (R508): Eight consecutive valid headers are received, the port comes up and its session begins. -/
  | linkUp (l : Nat) (lanes : Nat) (partner2 : Bool) (t : Trip)
  /-- LANE_FAIL (R539): A receive lane loses lock, shows code errors or misses its marker, and the port falls back to one lane. -/
  | laneFail (l : Nat) (lane : Nat)
  /-- LANE_REALIGNED (R539): Realignment to the surviving lane completes, and frames sent on the failed lane are sent again. -/
  | laneRealigned (l : Nat)
  /-- LANE_RESTORED (R542): The failed lane has regained TS2 lock and both ends return to two-lane transmission. -/
  | laneRestored (l : Nat)
  /-- PORT_DOWN (R543): A port loses both lanes, its markers or its chain; the session ends and training restarts. -/
  | portDown (l : Nat)
  /-- CHAIN_RESYNC (R536): A node receiving RESYNC discards its ratio estimate and stays silent until it is measured again. -/
  | chainResync (l : Nat) (n : Nat)
  /-- CHAIN_DROP (R536): A node receiving DROP stops transmitting its own frames and becomes dropped. -/
  | chainDrop (l : Nat) (n : Nat)
  /-- CHAIN_REJOIN_CMD (R537): A dropped node receiving REJOIN resynchronises and returns to the chain. -/
  | chainRejoinCmd (l : Nat) (n : Nat)
  /-- REJOIN (R537): A write of REJOIN at the head sends REJOIN to a node in the next header. -/
  | rejoin (p : Nat) (h : Hdr) (l : Nat) (n : Nat)
  /-- STREAM_FETCH_LANDED (R349): A Tuber fetch of sample frames lands in a stream buffer. -/
  | streamFetchLanded (serial : Nat) (osc : Nat) (n : Nat) (errs : List (Nat × Bool)) (lat : Nat)
  /-- TUBER_SCRUB (R337): The patrol scrub reads Tuber data at SCRUB_RATE and writes corrected words back. -/
  | tuberScrub (a : Nat) (st : MemSt)
  /-- LPDDR5_RETRAIN_DONE (R334): Retraining after a DATA_RATE switch completes, and waiting DMA resumes. -/
  | lpddr5RetrainDone
  /-- DMA_DESCRIPTOR (R353): A DMA channel takes the next descriptor from its ring, checks it and starts moving bytes. -/
  | dmaDescriptor (c : Nat) (errs : List (Nat × Bool))
  /-- DMA_COMPLETION (R355): A descriptor's last byte lands and its completion item is written to the completion queue. -/
  | dmaCompletion (c : Nat)
  /-- VERIFY (R341): A write of VERIFY starts a CRC pass over the selected region. -/
  | verify (p : Nat) (h : Hdr)
  /-- VERIFY_DONE (R341): A VERIFY pass ends and VERIFY_STATE becomes pass or fail. -/
  | verifyDone (errs : List (Nat × Bool))
  /-- RELOC_GO (R357): A write of RELOC_GO starts a move of a region to RELOC_DEST. -/
  | relocGo (p : Nat) (h : Hdr)
  /-- MOVE_COPY_DONE (R358): The move's copy ends and verification of the destination begins. -/
  | moveCopyDone (errs : List (Nat × Bool))
  /-- MOVE_VERIFY_DONE (R358): The move's read-back completes and the move becomes switch-pending or failed. -/
  | moveVerifyDone (errs : List (Nat × Bool))
  /-- MOVE_DONE (R358): The last fetch issued with the old START lands, and the move is done. -/
  | moveDone
  /-- RELOC_ABORT (R359): A write of RELOC_ABORT aborts a move in state 1, 2 or 3. -/
  | relocAbort (p : Nat) (h : Hdr)
  /-- GOURD_SCRUB (R375): The Gourd patrol scrub reads words in idle handshakes and corrects or poisons them. -/
  | gourdScrub (a : Nat) (m : MemSt) (last : Bool)
  /-- DELAY_EXPIRY (R483): A delay-list entry's expiry tick is reached, and its thread becomes ready. -/
  | delayExpiry (tick : Nat)
  /-- QPUT_RESUME (R493): A producer stalled on a full queue resumes when the queue has room. -/
  | qputResume (q : Nat)
  /-- CNT_VALUE (R470): A host write of CNT_VALUE sets the selected counter, releasing it at 0. -/
  | cntValue (p : Nat) (h : Hdr) (v : Nat)
  /-- KICK (R468): A write of KICK makes an IDLE kernel thread ready. -/
  | kick (p : Nat) (h : Hdr)
  /-- LEVEL_WRITE (R480): A write of a thread's LEVEL, applied at cycle end, moves it to the new level list. -/
  | levelWrite (p : Nat) (h : Hdr) (v : Nat)
  /-- ITEM_WRITE (R495): A single-segment BLOCK-WRITE of ITEM puts one item at the tail of a mailbox or I/O ring. -/
  | itemWrite (p : Nat) (h : Hdr) (v : BitVec 128)
  /-- TAKE (R495): A write of TAKE removes the head item of a mailbox or I/O ring. -/
  | take (p : Nat) (h : Hdr)
  /-- FLUSH (R496): A write of FLUSH removes every item of a queue at the end of its arbitration cycle. -/
  | flush (p : Nat) (h : Hdr)
  /-- DIGEST_MARK (R93): A write of DIGEST_MARK arms a mark on a future block of the epoch. -/
  | digestMark (p : Nat) (h : Hdr) (v : Nat)
  /-- FAULT_CLEAR (R167): A write of FAULT_CLEAR removes the fault records up to FAULT_SEQ at execution. -/
  | faultClear (p : Nat) (h : Hdr)
  /-- WATCHDOG (R649): A Pod or core holding work completes no step for 4 µs and is failed over or taken out of service. -/
  | watchdog (u : Nat)
  /-- RETIRE (R663): A write of RETIRE hands a unit's work to a spare at the next boundary. -/
  | retire (p : Nat) (h : Hdr) (u : Nat)
  /-- READMIT (R664): A write of READMIT starts the self-test of an out-of-service unit. -/
  | readmit (p : Nat) (h : Hdr) (u : Nat)
  /-- SELF_TEST_DONE (R664): A 2 ms self-test ends, and the unit becomes a spare or stays failed. -/
  | selfTestDone (u : Nat) (pass : Bool)
  /-- PERIODIC_SPARE_TEST (R666): Every SPARE_TEST_S seconds each spare starts its self-test. -/
  | periodicSpareTest
  /-- RESTORE (R667): A write of RESTORE returns positions to service on spares at the next boundary. -/
  | restore (p : Nat) (h : Hdr)
  /-- SAP_FRAME_START (R557): A port frame starts and the oldest FIFO frame is sent, or the last frame is repeated on underrun. -/
  | sapFrameStart (n : Nat)
  /-- SAP_INPUT_FRAME (R558): An input frame of N words is written to IN_RING, or dropped when the ring lacks room. `levels` holds
  DI0 (bit 0) and DI1 (bit 1) at each sampling edge from the frame-start edge on (R553). -/
  | sapInputFrame (n : Nat) (levels : List Nat)
  /-- SAP_FRAMING_ERROR (R562): A slave FSYNC edge arrives at the wrong BCLK count; the frame is discarded and the port realigns. -/
  | sapFramingError (n : Nat)
  /-- SAP_CLOCKS_VALID (R562): Four error-free frames arrive and the slave port starts running. -/
  | sapClocksValid (n : Nat) (rate : Nat) (bclk : Nat)
  /-- SAP_CLOCK_LOSS (R562): No frame edge arrives for 4 expected periods, and the port waits for clocks again. -/
  | sapClockLoss (n : Nat)
  /-- ASRC_LOCK (R560): The ratio estimate has stayed within ±1 ppm for 1,024 input frames, and the ASRC locks. -/
  | asrcLock (n : Nat) (ratio : Estimate)
  /-- CV_STROBE_PIN (R583): A filtered rising edge on LDCV loads every enabled CV channel's pending code. -/
  | cvStrobePin
  /-- DEGLITCH_HOLD_END (R586): The 600 ns deglitch hold of a major-code transition ends and the output moves to the new code. -/
  | deglitchHoldEnd (n : Nat)
  /-- CLRCV_ASSERT (R587): CLRCV rises and every CV channel loads its CLEAR_CODE. -/
  | clrcvAssert
  /-- CLRCV_RELEASE (R587): CLRCV falls, and strobes are accepted again. -/
  | clrcvRelease
  /-- CV_CLEAR (R587): A write of CV_CLEAR, applied at cycle end, sets or ends the software clear of the CV outputs. -/
  | cvClear (p : Nat) (h : Hdr) (v : Bool)
  /-- DAC_LOAD_FAULT (R579): A DAC leg has stayed outside its limits for 20 µs, and OPEN_LOAD or COMPLIANCE is set, muting the channel with FAULT_MUTE. -/
  | dacLoadFault (n : Nat) (compliance : Bool)
  /-- DAC_LOAD_FAULT_CLEAR (R579): The fault condition has been absent for 20 µs, and the flag clears. -/
  | dacLoadFaultClear (n : Nat) (compliance : Bool)
  /-- SENSE_SCAN (R597): An 8 µs scan (or a fall-back scan every FB_PERIOD) begins, setting the SMX address and sampling the inputs on schedule. -/
  | senseScan
  /-- SENSE_COARSE_READY (R604): A conversion's coarse value is ready at 150 ns and drives the sensor's strike machine. -/
  | senseCoarseReady (n : Nat) (c : Nat) (pos : Nat)
  /-- SENSE_CONVERSION (R601): A conversion's code is ready at 450 ns and passes through the DC block, decimation and the detector. -/
  | senseConversion (n : Nat) (x : Nat) (pos : Nat)
  /-- STRIKE_ITEM_ENTRY (R606): A strike or release item waiting in the FIFO enters STRIKE_RING when room appears. -/
  | strikeItemEntry
  /-- TIMER_TICK (R623): The prescaler emits a tick: CNT increments and overflow, compare match, output action and CV strobe follow. -/
  | timerTick (n : Nat)
  /-- TIN_EDGE (R627): A filtered TIN edge reaches a timer and captures CNT on every CAP_DIV-th edge. -/
  | tinEdge (p : Nat) (rising : Bool) (frac : Nat)
  /-- TC_CNT_WRITE (R624): A write of CNT, applied at cycle end, sets the counter and clears the prescaler accumulator. -/
  | tcCntWrite (p : Nat) (h : Hdr) (n : Nat) (v : Nat)
  /-- TC_CMP_WRITE (R624): A write of CMP, applied at cycle end, sets the compare value. -/
  | tcCmpWrite (p : Nat) (h : Hdr) (n : Nat) (v : Nat)
  /-- UART_CHAR_RX (R634): A received character completes at its first stop bit and passes to the unit's mode: MIDI parser, ring item, host framing or flow control. -/
  | uartCharRx (n : Nat) (c : Nat) (parity : Bool) (stop : Bool)
  /-- UART_RX_TIMEOUT (R637): No start arrives for RX_TIMEOUT bit periods, and the partial receive item is closed. -/
  | uartRxTimeout (n : Nat)
  /-- UART_RX_ITEM_ENTRY (R638): A closed receive item that waited for RX_RING room is written. -/
  | uartRxItemEntry (n : Nat)
  /-- UART_TX_DONE (R635): A character finishes its last stop bit and the next character or TX_RING item starts. -/
  | uartTxDone (n : Nat)
  /-- TX_RESUME (R636): A write of TX_RESUME clears TX_PAUSED. -/
  | txResume (p : Nat) (h : Hdr) (n : Nat)
  /-- POWER_ON (R675): The rails come up in order and a power-on reset holds the device. -/
  | powerOn
  /-- SUPPLY_MONITOR_RESET (R678): A rail stays outside its thresholds for 10 µs, causing a supply-monitor reset. -/
  | supplyMonitorReset (rail : Nat)
  /-- COLD_RESET (R679): RST_N is held low for 1 µs or longer, causing a cold reset. -/
  | coldReset
  /-- WARM_RESET (R679): WRST_N is held low for 1 µs or longer, causing a warm reset with LPDDR5 retention. -/
  | warmReset
  /-- RESET_REQ_COLD (R681): A write of 1 to RESET_REQ starts a cold reset after the response. -/
  | resetReqCold (p : Nat) (h : Hdr)
  /-- RESET_REQ_WARM (R681): A write of 2 to RESET_REQ starts a warm reset after the response. -/
  | resetReqWarm (p : Nat) (h : Hdr)
  /-- RESET_RELEASE (R683): Reset is released and start-up runs fuse load, ROM boot, Gourd initialisation and default records to DEVICE_STATE 1. -/
  | resetRelease (fuses : Bool) (train0 : Bool) (train1 : Bool)
  /-- SLEEP_REQUEST (R686): A write of 1 to SLEEP enters sleep in the order of R687, or is answered BUSY. -/
  | sleepRequest (p : Nat) (h : Hdr)
  /-- WAKE_N_ASSERT (R689): WAKE_N low for 10 µs with WAKE_SRC bit 0 set wakes the device. -/
  | wakeNAssert
  /-- LINK_ACTIVITY_WAKE (R689): Activity on a Link port's receive lanes, with its WAKE_SRC bit set, wakes the device. -/
  | linkActivityWake (l : Nat)
  /-- AVS_READBACK (R694): 20 µs after a voltage request the regulator is read back, and a failure writes a SUPPLY record. -/
  | avsReadback (ack : Bool) (mv : Nat)
  /-- TAP_RESET (R705): TRST_N low, or five TCK periods with TMS high, resets the TAP to BYPASS. -/
  | tapReset
  /-- EXTEST (R704): TAP instruction 0x00 drives the pins from the boundary register. -/
  | extest
  /-- SAMPLE_PRELOAD (R704): TAP instruction 0x01 samples and preloads the boundary register. -/
  | samplePreload (bits : Nat)
  /-- CLAMP (R704): TAP instruction 0x02 holds the pins from the boundary register with BYPASS selected. -/
  | clamp
  /-- HIGHZ (R704): TAP instruction 0x03 puts the outputs in high impedance. -/
  | highz
  /-- BYPASS (R704): TAP instruction 0xFF, and every private opcode, selects the bypass register. -/
  | bypass
  /-- END (R429): KCALL 0 ends the dispatch, and in an audio thread seals the block. -/
  | kEnd (core : Nat)
  /-- YIELD (R429): KCALL 1 ends the dispatch with the thread ready at the tail of its level. -/
  | kYield (core : Nat)
  /-- WAIT (R472): KCALL 2 ends the dispatch until a granted dependence counter reaches zero. -/
  | kWait (core : Nat)
  /-- SLEEP (R483): KCALL 3 places the thread in its delay list for the requested microseconds. -/
  | kSleep (core : Nat)
  /-- SIGNAL (R470): KCALL 4 decrements a granted dependence counter, staged until the seal in an audio thread. -/
  | kSignal (core : Nat)
  /-- QGET (R485): KCALL 5 takes the head item of a granted queue into V0, taking its flow, or returns LAST on underrun. -/
  | kQget (core : Nat) (m : MemSt)
  /-- QPUT (R493): KCALL 6 puts V0 at the tail of a granted queue, stalling or staging when it is full. -/
  | kQput (core : Nat)
  /-- QCOUNT (R429): KCALL 7 returns a granted queue's item count. -/
  | kQcount (core : Nat)
  /-- POST (R329): KCALL 8 posts one UMP packet into a part event queue at a chosen SIX. -/
  | kPost (core : Nat)
  /-- BLOCK (R429): KCALL 9 returns the first SIX of the thread's block, or SIX_NOW. -/
  | kBlock (core : Nat)
  /-- KCALL_UNDEFINED (R429): A KCALL with n above 9 returns 6 and has no effect. -/
  | kUndefined (core : Nat) (num : BitVec 8)
  /-- FENCE_R (R383): Orders earlier direct reads before later direct reads. -/
  | fenceR (core : Nat)
  /-- FENCE_W (R383): Orders earlier direct writes before later direct writes. -/
  | fenceW (core : Nat)
  /-- FENCE_RW (R383): Orders all earlier direct reads and writes before all later ones. -/
  | fenceRw (core : Nat)
  /-- FENCE_I (R413): Empties the prefetch buffer so that later instructions are fetched afresh. -/
  | fenceI (core : Nat)
  /-- REP (R443): Starts a zero-overhead loop with an immediate count. -/
  | rep (core : Nat) (len1 : BitVec 7) (count : BitVec 15)
  /-- REP_REG (R443): Starts a zero-overhead loop whose count is taken from Gg[15:0]. -/
  | repReg (core : Nat) (len1 : BitVec 7) (g : BitVec 5)
  /-- MFS (R442): Copies ST into Gd. -/
  | mfs (core : Nat) (d : BitVec 5)
  /-- MTS (R442): Writes ST[22:0] from Gs. -/
  | mts (core : Nat) (rs : BitVec 5)
  /-- STCLR (R442): Clears the ST bits set in Gs. -/
  | stclr (core : Nat) (rs : BitVec 5)
  /-- MFBX (R442): Copies BX into Gd. -/
  | mfbx (core : Nat) (d : BitVec 5)
  /-- MTBX (R442): Sets HEAD and SCALE of BX from Gs. -/
  | mtbx (core : Nat) (rs : BitVec 5)
  /-- ADD (R444): Scalar wrapping add, setting N, Z, C and V. -/
  | add (core : Nat) (d : BitVec 5) (a : BitVec 5) (b : BitVec 5)
  /-- SUB (R444): Scalar wrapping subtract, setting N, Z, C and V; CMP is its form with d = 0. -/
  | sub (core : Nat) (d : BitVec 5) (a : BitVec 5) (b : BitVec 5)
  /-- AND (R444): Scalar bitwise and. -/
  | and (core : Nat) (d : BitVec 5) (a : BitVec 5) (b : BitVec 5)
  /-- OR (R444): Scalar bitwise or. -/
  | or (core : Nat) (d : BitVec 5) (a : BitVec 5) (b : BitVec 5)
  /-- XOR (R444): Scalar bitwise exclusive or. -/
  | xor (core : Nat) (d : BitVec 5) (a : BitVec 5) (b : BitVec 5)
  /-- SHL (R444): Shift left by register. -/
  | shl (core : Nat) (d : BitVec 5) (a : BitVec 5) (b : BitVec 5)
  /-- SHR (R444): Logical shift right by register. -/
  | shr (core : Nat) (d : BitVec 5) (a : BitVec 5) (b : BitVec 5)
  /-- SAR (R444): Arithmetic shift right by register. -/
  | sar (core : Nat) (d : BitVec 5) (a : BitVec 5) (b : BitVec 5)
  /-- SHLI (R444): Shift left by immediate. -/
  | shli (core : Nat) (d : BitVec 5) (a : BitVec 5) (c : BitVec 5)
  /-- SHRI (R444): Logical shift right by immediate. -/
  | shri (core : Nat) (d : BitVec 5) (a : BitVec 5) (c : BitVec 5)
  /-- SARI (R444): Arithmetic shift right by immediate. -/
  | sari (core : Nat) (d : BitVec 5) (a : BitVec 5) (c : BitVec 5)
  /-- MUL (R444): Low 32 bits of the product. -/
  | mul (core : Nat) (d : BitVec 5) (a : BitVec 5) (b : BitVec 5)
  /-- MULH (R444): High 32 bits of the signed product. -/
  | mulh (core : Nat) (d : BitVec 5) (a : BitVec 5) (b : BitVec 5)
  /-- MULHU (R444): High 32 bits of the unsigned product. -/
  | mulhu (core : Nat) (d : BitVec 5) (a : BitVec 5) (b : BitVec 5)
  /-- MULQ (R444): Rounded and saturated Q1.31 product. -/
  | mulq (core : Nat) (d : BitVec 5) (a : BitVec 5) (b : BitVec 5)
  /-- ADDS (R444): Saturating add. -/
  | adds (core : Nat) (d : BitVec 5) (a : BitVec 5) (b : BitVec 5)
  /-- SUBS (R444): Saturating subtract. -/
  | subs (core : Nat) (d : BitVec 5) (a : BitVec 5) (b : BitVec 5)
  /-- MIN (R444): Signed minimum. -/
  | min (core : Nat) (d : BitVec 5) (a : BitVec 5) (b : BitVec 5)
  /-- MAX (R444): Signed maximum. -/
  | max (core : Nat) (d : BitVec 5) (a : BitVec 5) (b : BitVec 5)
  /-- CLZ (R444): Count of leading zeros. -/
  | clz (core : Nat) (d : BitVec 5) (a : BitVec 5)
  /-- ADDI (R445): Add a signed immediate. -/
  | addi (core : Nat) (d : BitVec 5) (a : BitVec 5) (imm : BitVec 16)
  /-- SUBI (R445): Subtract a signed immediate; CMPI is its form with d = 0. -/
  | subi (core : Nat) (d : BitVec 5) (a : BitVec 5) (imm : BitVec 16)
  /-- ANDI (R445): And with a zero-extended immediate. -/
  | andi (core : Nat) (d : BitVec 5) (a : BitVec 5) (imm : BitVec 16)
  /-- ORI (R445): Or with a zero-extended immediate. -/
  | ori (core : Nat) (d : BitVec 5) (a : BitVec 5) (imm : BitVec 16)
  /-- XORI (R445): Exclusive or with a zero-extended immediate. -/
  | xori (core : Nat) (d : BitVec 5) (a : BitVec 5) (imm : BitVec 16)
  /-- MOVHI (R445): Loads an immediate into the upper half of Gd. -/
  | movhi (core : Nat) (d : BitVec 5) (imm : BitVec 16)
  /-- BR (R446): Conditional relative branch. -/
  | br (core : Nat) (cond : BitVec 4) (off : BitVec 13)
  /-- JMP (R447): Jump to an absolute target. -/
  | jmp (core : Nat) (target : BitVec 13)
  /-- JAL (R447): Jump and link. -/
  | jal (core : Nat) (d : BitVec 5) (target : BitVec 13)
  /-- JR (R447): Jump to the address held in Ga. -/
  | jr (core : Nat) (a : BitVec 5)
  /-- LDB (R450): Load a sign-extended byte. -/
  | ldb (core : Nat) (o : MemOp) (m : MemSt)
  /-- LDBU (R450): Load a zero-extended byte. -/
  | ldbu (core : Nat) (o : MemOp) (m : MemSt)
  /-- LDH (R450): Load a sign-extended half-word. -/
  | ldh (core : Nat) (o : MemOp) (m : MemSt)
  /-- LDHU (R450): Load a zero-extended half-word. -/
  | ldhu (core : Nat) (o : MemOp) (m : MemSt)
  /-- LDW (R450): Load a word, transactionally or directly, from local memory or Gourd. -/
  | ldw (core : Nat) (o : MemOp) (m : MemSt)
  /-- LDD (R450): Load a doubleword into a register pair. -/
  | ldd (core : Nat) (o : MemOp) (m : MemSt)
  /-- STB (R450): Store a byte. -/
  | stb (core : Nat) (o : MemOp) (m : MemSt)
  /-- STH (R450): Store a half-word. -/
  | sth (core : Nat) (o : MemOp) (m : MemSt)
  /-- STW (R450): Store a word, staged in an audio thread or direct otherwise. -/
  | stw (core : Nat) (o : MemOp) (m : MemSt)
  /-- STD (R450): Store a register pair. -/
  | std (core : Nat) (o : MemOp) (m : MemSt)
  /-- VLD (R451): Load a 16-byte vector. -/
  | vld (core : Nat) (o : MemOp) (m0 : MemSt) (m1 : MemSt)
  /-- VST (R451): Store a 16-byte vector. -/
  | vst (core : Nat) (o : MemOp) (m0 : MemSt) (m1 : MemSt)
  /-- ATOMIC_ADD (R454): Atomic 32-bit add, transactional in an audio thread. -/
  | atomicAdd (core : Nat) (o : AtomOp) (m : MemSt)
  /-- ATOMIC_ADD_D64 (R454): Atomic 64-bit add on register pairs. -/
  | atomicAddD64 (core : Nat) (o : AtomOp) (m : MemSt)
  /-- SWAP (R453): Direct atomic 32-bit swap. -/
  | swap (core : Nat) (o : AtomOp) (m : MemSt)
  /-- SWAP_D64 (R453): Direct atomic 64-bit swap. -/
  | swapD64 (core : Nat) (o : AtomOp) (m : MemSt)
  /-- CAS (R453): Direct atomic 32-bit compare-and-swap. -/
  | cas (core : Nat) (o : AtomOp) (m : MemSt)
  /-- CAS_D64 (R453): Direct atomic 64-bit compare-and-swap. -/
  | casD64 (core : Nat) (o : AtomOp) (m : MemSt)
  /-- CADD (R455): Commit-add of B 64-bit words from local memory into a bus buffer. -/
  | cadd (core : Nat) (rs : BitVec 5) (a : BitVec 3) (upd : Bool)
  /-- LDP (R456): Read one word of the core's program memory. -/
  | ldp (core : Nat) (g : BitVec 5) (bank : Bool) (rs : BitVec 5) (word : BitVec 13)
  /-- STP (R456): Write one word of the core's program memory. -/
  | stp (core : Nat) (g : BitVec 5) (bank : Bool) (rs : BitVec 5) (word : BitVec 13)
  /-- AMOV (R448): Move between Gg and an AD, BS, LN or MD register. -/
  | amov (core : Nat) (g : BitVec 5) (kind : BitVec 2) (num : BitVec 3) (dir : Bool)
  /-- AMOD (R448): Update AD_a by MD_a or an immediate under circular addressing. -/
  | amod (core : Nat) (a : BitVec 3) (src : Bool) (imm : BitVec 16)
  /-- VMAC (R458): Lane multiply-accumulate, with the I, Z and L forms. -/
  | vmac (core : Nat) (o : MacOp)
  /-- VMSU (R458): Lane multiply-subtract. -/
  | vmsu (core : Nat) (o : MacOp)
  /-- VMACS (R458): Saturating lane multiply-accumulate. -/
  | vmacs (core : Nat) (o : MacOp)
  /-- VMSUS (R458): Saturating lane multiply-subtract. -/
  | vmsus (core : Nat) (o : MacOp)
  /-- VWMAC (R459): Wide multiply-accumulate into an 80-bit pair. -/
  | vwmac (core : Nat) (o : WMacOp)
  /-- VWMSU (R459): Wide multiply-subtract. -/
  | vwmsu (core : Nat) (o : WMacOp)
  /-- VWMACS (R459): Saturating wide multiply-accumulate. -/
  | vwmacs (core : Nat) (o : WMacOp)
  /-- VWMSUS (R459): Saturating wide multiply-subtract. -/
  | vwmsus (core : Nat) (o : WMacOp)
  /-- VEXTR (R460): Extract accumulator lanes (or wide lanes) into a V register, optionally clearing them. -/
  | vextr (core : Nat) (o : ExtrOp)
  /-- VADD (R457): Wrapping lane add. -/
  | vadd (core : Nat) (vd : BitVec 4) (va : BitVec 4) (vb : BitVec 4)
  /-- VADDS (R457): Saturating lane add. -/
  | vadds (core : Nat) (vd : BitVec 4) (va : BitVec 4) (vb : BitVec 4)
  /-- VSUB (R457): Wrapping lane subtract. -/
  | vsub (core : Nat) (vd : BitVec 4) (va : BitVec 4) (vb : BitVec 4)
  /-- VSUBS (R457): Saturating lane subtract. -/
  | vsubs (core : Nat) (vd : BitVec 4) (va : BitVec 4) (vb : BitVec 4)
  /-- VMULQ (R457): Rounded Q1.15 lane product. -/
  | vmulq (core : Nat) (vd : BitVec 4) (va : BitVec 4) (vb : BitVec 4)
  /-- VAND (R457): Lane bitwise and. -/
  | vand (core : Nat) (vd : BitVec 4) (va : BitVec 4) (vb : BitVec 4)
  /-- VOR (R457): Lane bitwise or. -/
  | vor (core : Nat) (vd : BitVec 4) (va : BitVec 4) (vb : BitVec 4)
  /-- VXOR (R457): Lane bitwise exclusive or. -/
  | vxor (core : Nat) (vd : BitVec 4) (va : BitVec 4) (vb : BitVec 4)
  /-- VSHL (R457): Wrapping lane shift left. -/
  | vshl (core : Nat) (vd : BitVec 4) (va : BitVec 4) (k : BitVec 4)
  /-- VSHLS (R457): Saturating lane shift left. -/
  | vshls (core : Nat) (vd : BitVec 4) (va : BitVec 4) (k : BitVec 4)
  /-- VSAR (R457): Arithmetic lane shift right. -/
  | vsar (core : Nat) (vd : BitVec 4) (va : BitVec 4) (k : BitVec 4)
  /-- VSRR (R457): Rounding lane shift right. -/
  | vsrr (core : Nat) (vd : BitVec 4) (va : BitVec 4) (k : BitVec 4)
  /-- VMIN (R457): Lane signed minimum. -/
  | vmin (core : Nat) (vd : BitVec 4) (va : BitVec 4) (vb : BitVec 4)
  /-- VMAX (R457): Lane signed maximum. -/
  | vmax (core : Nat) (vd : BitVec 4) (va : BitVec 4) (vb : BitVec 4)
  /-- VABS (R457): Saturating lane absolute value. -/
  | vabs (core : Nat) (vd : BitVec 4) (va : BitVec 4)
  /-- VNEG (R457): Saturating lane negate. -/
  | vneg (core : Nat) (vd : BitVec 4) (va : BitVec 4)
  /-- VMOV (R457): Vector move. -/
  | vmov (core : Nat) (vd : BitVec 4) (va : BitVec 4)
  /-- ACLR (R461): Clear every lane of an accumulator. -/
  | aclr (core : Nat) (ac : BitVec 2)
  /-- ACLD (R461): Load accumulator lanes from a V register, scaled by 2^(16 − k). -/
  | acld (core : Nat) (ac : BitVec 2) (va : BitVec 4) (k : BitVec 5)
  /-- VINS (R462): Insert Gg into one lane. -/
  | vins (core : Nat) (vd : BitVec 4) (g : BitVec 5) (lane : BitVec 3)
  /-- VEXT (R462): Extract one lane into Gg. -/
  | vext (core : Nat) (g : BitVec 5) (va : BitVec 4) (lane : BitVec 3)
  /-- VBC (R462): Broadcast Gg to every lane. -/
  | vbc (core : Nat) (vd : BitVec 4) (g : BitVec 5)
  /-- VROT (R462): Rotate the lanes. -/
  | vrot (core : Nat) (vd : BitVec 4) (va : BitVec 4) (lane : BitVec 3)
  /-- VINSW (R462): Insert Gg into one 32-bit element. -/
  | vinsw (core : Nat) (vd : BitVec 4) (g : BitVec 5) (e : BitVec 2)
  /-- VEXTW (R462): Extract one 32-bit element into Gg. -/
  | vextw (core : Nat) (g : BitVec 5) (va : BitVec 4) (e : BitVec 2)
  /-- VSPL (R462): Splat one lane to every lane. -/
  | vspl (core : Nat) (vd : BitVec 4) (va : BitVec 4) (lane : BitVec 3)
  /-- VSUM (R462): Exact sum of the eight lanes into Gg. -/
  | vsum (core : Nat) (g : BitVec 5) (va : BitVec 4)
  /-- BEXP (R409): Lowers HEAD to the least headroom among the lanes of a vector. -/
  | bexp (core : Nat) (va : BitVec 4)
  /-- BNORM (R410): Normalises n vectors in place to g bits of headroom and updates SCALE. -/
  | bnorm (core : Nat) (a : BitVec 3) (g : BitVec 4) (n1 : BitVec 8) (ms : List MemSt)
  /-- UNDEFINED_INSTRUCTION (R441): An undefined word is not performed and is refused under cause 5, freezing the core. -/
  | undefinedInstruction (core : Nat)
  /-- SAMPLE_EGRESS (R33): At each engine-sample instant of the media clock a sample leaves the output mixer. It enters the SAP output FIFOs and the Link iso stream buffers, and the sample two earlier reaches the DAC interpolators and the CV pending registers, with the LD_SRC 0 strobe at sample k·B. -/
  | sampleEgress
  /-- INVALID_SERVICE_FRAME (R116): A service frame arrives with DIR = 1, with service code 0x00, 0x0D or 0x0E–0x7F, or on a Link port with LEN above 64. It is answered TYPE-MISMATCH as a protocol error or discarded without response. -/
  | invalidServiceFrame (p : Nat) (svc : Nat) (f : Frame)
  /-- FALSE_START (R633): A falling edge on UnRX starts a character whose start-bit sample reads 1; the start is ignored, FALSE_STARTS increments and the receiver searches again. -/
  | falseStart (n : Nat)
  /-- CHAIN_FRAME_FORWARD (R529): In chain mode, a frame in a slot that the device neither owns nor is the destination of is forwarded unchanged, subject to the guard test of R534. A frame that returns to its owner is stripped. -/
  | chainFrameForward (l : Nat) (owner : Nat) (off : Int) (b : List Byte)
deriving DecidableEq, Repr

end Sys2Proof
end

