-- ==== Sys2Proof/Machine/State.lean ====
section
/-!
DEFINITION. Sys2Proof/Machine/State.lean: everything the spec gives the device, as plain data, and its value
right after reset (04 R105). Every scalar object of the dictionary that is not a view of other state has its one
home in `obj` or in a configuration version, keyed by index, sub-index and window instance; everything else has
a field of its own. `pending` is the queue of commands that are waiting.
-/
namespace Sys2Proof.Machine

/-- Reasons a step stops with a fault. No command of this block ends in one (NOTES.md, Stops): every condition
the spec calls a fault is a next state of the device. -/
inductive Fault
  /-- Never raised: kept so that the type is inhabited. Safe. -/
  | none
deriving DecidableEq, Repr

/-- Reasons a step is refused. -/
inductive Refusal
  /-- Raised by Dispatch.lean alone, for a command that has no meaning yet. Safe: nothing can be proved of it. -/
  | notModelled (mnemonic : String)
deriving DecidableEq, Repr

/-! ### Configuration versions (04 R130-R137) -/

/-- One configuration version: RS values that differ from their defaults, program-record bytes that differ from
the default record (key 2,048·program + offset), SLOT_MAP bytes (key 1,920·port + offset), and the placed items
of the general heap (13 R393: key of the item, base). -/
structure Version where
  num : Nat
  vals : AMap Nat
  recs : AMap Byte
  slots : AMap Byte
  heap : AMap Nat
  caps : List Nat
deriving DecidableEq, Repr

/-- Version 0: every default. -/
def Version.zero : Version := ⟨0, [], [], [], [], []⟩

/-- STAGE_STATE of 04 R146. -/
inductive Stage | idle | opened | commitPending | revertPending
deriving DecidableEq, Repr

/-- The version machine of 04 R132. `before` keeps, newest first, a switch's boundary with the version it replaced, for the
windows before it that are still open (03 R68); `untold` is the port whose COMMIT or REVERT restarts it and whose answer has not
left yet (17 R544, 21 R642); `startAfter`: a start of the media waits for that switch (02 R31). -/
structure VerSt where
  active : Version
  before : List (Nat × Version)
  previous : Option Version
  staging : Option Version
  owner : Option Nat
  stage : Stage
  switchAt : Option Nat
  highest : Nat
  untold : Option Nat
  startAfter : Bool
deriving DecidableEq, Repr

/-! ### Service ports (04 R106-R145) -/

/-- A response in a port's response store (04 R112). -/
structure Resp where
  node : Nat
  seq : Nat
  svc : Nat
  code : Nat
  idx : Nat
  sub : Nat
  payload : List Byte
deriving DecidableEq, Repr

/-- A notification that waits to leave (04 R123). -/
structure Note where
  node : Nat
  idx : Nat
  sub : Nat
  inst : Nat
  block : Nat
  value : List Byte
deriving DecidableEq, Repr

/-- A subscription (04 R121): node of a chain (17 R531), object instance, mode, period, boundaries until due, value
last notified. -/
structure Subscription where
  node : Nat
  idx : Nat
  sub : Nat
  inst : Nat
  mode : Nat
  period : Nat
  due : Nat
  last : Option (List Byte)
deriving DecidableEq, Repr

/-- An open BLOCK-WRITE transfer (04 R118). -/
structure Xfer where
  idx : Nat
  sub : Nat
  inst : Nat
  first : Nat
  data : List Byte
deriving DecidableEq, Repr

/-- An item bound for a part event queue: part, key fields and words of 11 R320. -/
structure EvItem where
  part : Nat
  packet : Nat
  six : Nat
  cls : Nat
  src : Nat
  u0 : Nat
  u1 : Nat
deriving DecidableEq, Repr

/-- An EVENT frame that waits for queue room (11 R318): its items, whether it is untimed, its packet count and
the identity inquiries it carries. -/
structure EvWait where
  frame : Frame
  untimed : Bool
  packets : Nat
  items : List EvItem
  inquiries : List Nat
deriving DecidableEq, Repr

/-- What a port still has to answer, in order of arrival (04 R113): a live write and its answer once resolved,
an EVENT frame or an ITEM write waiting for room, or a request not yet executed, with the anchor in force when its
CRC check completed (02 R55). -/
inductive Outq
  | live (f : Frame) (svc : Nat) (ans : Option Nat)
  | event (w : EvWait)
  | item (f : Frame) (queue : Nat) (v : BitVec 128)
  | req (svc : Nat) (f : Frame) (anchor : Option (Nat × Nat))
deriving DecidableEq, Repr

/-- One service port (04 R106-R145, 05 R152). -/
structure Port where
  session : Bool
  store : List Resp
  outq : List Outq
  xfer : Option Xfer
  subs : List Subscription
  bucket : Nat
  protoCount : Nat
  selThread : Nat
  selQueue : Nat
  selRegion : Nat
  selCounter : Nat
  selProgram : Nat
  selVoice : Nat
  noteSeq : Nat
  notes : List Note
  selfTimer : Bool
  removeEvents : Bool
deriving DecidableEq, Repr

/-- A port after reset: no session, nothing kept. -/
def Port.zero : Port := ⟨false, [], [], none, [], 0, 0, 0, 0, 0, 0, 0, 0, 0, [], false, false⟩

/-- A live write of the current Link cycle (04 R126), in arrival order. -/
structure Live where
  port : Nat
  svc : Nat
  frame : Frame
  idx : Nat
  sub : Nat
  inst : Nat
  off : Nat
  data : List Byte
deriving DecidableEq, Repr

/-- A fault-log record (05 R164). -/
structure FaultRec where
  seq : Nat
  epoch : Nat
  block : Nat
  uptime : Nat
  kind : Nat
  unit : Nat
  action : Nat
  repl : Nat
  lost : Nat
  detail : Nat
  addr : Nat
deriving DecidableEq, Repr

/-! ### Media and time (02) -/

/-- Media position and stop (02 R32, R33, R46): next sample to leave, latest boundary, a stop write that waits for
the next boundary, the boundary m of a stop under way; whether the lock timeout of the start under way has passed
(R44). -/
structure Media where
  next : Nat
  block : Nat
  stopReq : Bool
  stopM : Option Nat
  timedOut : Bool
deriving DecidableEq, Repr

/-- Anchors of Link time (02 R55-R62): the anchor in force (T_a, P_a), the history, newest first, and the device's
Link cycles since the time master's latest marker. -/
structure TimeSt where
  anchor : Option (Nat × Nat)
  hist : List (Nat × Nat)
  sinceMark : Nat
deriving DecidableEq, Repr

/-! ### Gourd (03, 13) -/

/-- Plain writes and atomic adds of a sealed transaction, held until the next boundary (03 R75): window, thread,
bytes, addresses of its staged entries, adds (address, bytes, value). -/
structure SealedWrite where
  window : Nat
  thread : Nat
  writes : AMap Byte
  slots : List Nat
  adds : List (Nat × Nat × Nat)
deriving DecidableEq, Repr

/-- A commit-add still due: window, whether a Pod position or a thread, its number, bus channel (03 R81, 16 R475). -/
structure Decl where
  window : Nat
  pod : Bool
  name : Nat
  ch : Nat
deriving DecidableEq, Repr

/-- Gourd: bytes (unlisted bytes 0, 13 R372), the bytes at the latest two boundaries for transactional readers
(03 R69, R70), poisoned words (13 R374), mix-bus words of 03 R78 keyed by (2·channel + parity)·64 + i, the
commit-adds still due, the windows with a missing contribution (02 R37, 03 R73), the sealed writes, and the sealed
checkpoint and save records that land at the next boundary (03 R83, R84), each with its window: position o as o, thread t as 64 + t. -/
structure Gourd where
  mem : AMap Byte
  snap : AMap Byte
  snapPrev : AMap Byte
  poison : List Nat
  bus : AMap Int
  declared : List Decl
  missing : List Nat
  sealed : List SealedWrite
  records : List (Nat × Nat)
deriving DecidableEq, Repr

/-! ### Stalk and Marrow (14-16) -/

/-- The registers of a Marrow thread (14 R400). -/
structure Regs where
  g : AMap Word
  v : AMap (BitVec 128)
  ac : AMap (BitVec 320)
  ad : AMap Word
  bs : AMap Word
  ln : AMap Word
  md : AMap Word
  st : Word
  bx : Word
  pc : BitVec 13
  rstart : BitVec 13
  rend : BitVec 13
  rcnt : BitVec 16
deriving DecidableEq, Repr

/-- Initial values of R400 with the given entry address. -/
def Regs.init (entry : Nat) : Regs :=
  ⟨[], [], [], [], [], [], [], 0#32, 0xF#32, BitVec.ofNat 13 entry, 0, 0, 0⟩

/-- Thread states of 16 R467. -/
inductive TState | disabled | idle | waiting | delayed | ready | running | stalled | suspended
deriving DecidableEq, Repr

/-- What a stalled dispatch waits for: a flow (a QGET on queue q, with its memory status), or room in queue q for an item (a QPUT, or a
POST whose item is an event). -/
inductive Stall
  | flow (q : Nat) (m : MemSt)
  | put (q : Nat) (v : BitVec 128)
  | post (it : EvItem)
deriving DecidableEq, Repr

/-- A Stalk thread (16 R465-R480) with the context its core keeps and its save record (03 R84): `was` and `woke`
keep the state and a cause that occurred while suspended, `releases` the windows held with the bank each uses
(14 R416), `bank` the bank of the previous dispatch, `saveBank` that of the dispatch whose registers `save` holds, `due`
a sealed save record that lands at the next boundary, `conf` a CONFLICT that ST does not show yet (14 R425). -/
structure Thread where
  st : TState
  was : TState
  woke : Bool
  regs : Regs
  save : Regs
  waitOn : Option Nat
  gate : Nat
  releases : List (Nat × Nat)
  bank : Option Nat
  saveBank : Option Nat
  due : Option (Regs × Nat)
  flow : Option Nat
  stall : Option Stall
  conf : Bool
deriving DecidableEq, Repr

/-- A thread after reset. -/
def Thread.zero : Thread :=
  ⟨.disabled, .disabled, false, Regs.init 0, Regs.init 0, none, 0, [], none, none, none, none, none, false⟩

/-- A staged operation on Stalk, in program order (16 R476, 14 R424). -/
inductive StagedOp
  | put (q : Nat) (v : BitVec 128)
  | post (it : EvItem)
  | signal (c : Nat)
deriving DecidableEq, Repr

/-- A Marrow block transaction (03 R71-R76): unit, window, thread, program bank, entries used, staged bytes and their
16-byte entries, atomic adds (address, bytes, value), commit-adds, staged Stalk operations, items at the head of each queue
that it has read, the item it read last from each (16 R491), and the registers at END once it waits for its seal. -/
structure Txn where
  core : Nat
  window : Nat
  thread : Nat
  bank : Nat
  used : Nat
  writes : AMap Byte
  slots : List Nat
  adds : List (Nat × Nat × Nat)
  cadds : List (Nat × List Int)
  ops : List StagedOp
  reads : AMap Nat
  lasts : AMap (BitVec 128)
  ended : Option Regs
deriving DecidableEq, Repr

/-- A Marrow core (14 R412-R433): dispatch in progress and its bank, prefetch buffer, staging buffer of the
dispatch, transactions that ended and wait for their seal (oldest first), local data memory, program banks,
whether its threads have stopped under R143, sampled progress for the watchdog. -/
structure Core where
  run : Option Nat
  bank : Nat
  window : Nat
  pbuf : List Word
  txn : Option Txn
  ended : List Txn
  mem : AMap Byte
  progA : AMap Word
  progB : AMap Word
  stopped : Bool
deriving DecidableEq, Repr

/-- A core after reset: banks and memory zero. -/
def Core.zero : Core := ⟨none, 0, 0, [], none, [], [], [], [], false⟩

/-- An atomic flow (16 R484, R485): holder (a thread, 0xFFFE the allocator), item in service, stalled takers. -/
structure Flow where
  holder : Option Nat
  inService : Bool
  stalled : List Nat
deriving DecidableEq, Repr

/-- A queue (16 R487-R496): items, LAST, threads stalled for room, items at the head that a FLUSH left for an
unsealed transaction; in a part event queue, beside each item the number of its message in the order of entry, the same
for every part that takes the message (10 R284, 11 R319). -/
structure Queue where
  items : List (BitVec 128)
  last : BitVec 128
  waiters : List Nat
  doomed : Nat
  seqs : List Nat
deriving DecidableEq, Repr

/-- A queue after reset. -/
def Queue.zero : Queue := ⟨[], 0, [], 0, []⟩

/-- Stalk: threads, counters, threads made ready that no scheduler step has entered yet, ready lists (ordinary keyed
16·core + level, hardware priority by level), delay lists of (expiry, thread), flows, queues, and the rings that a Marrow thread or Tuber DMA has filled (17 R527). -/
structure Stalk where
  threads : AMap Thread
  counters : AMap Nat
  woken : List Nat
  ordinary : AMap (List Nat)
  privileged : AMap (List Nat)
  delays : AMap (List (Nat × Nat))
  flows : AMap Flow
  queues : AMap Queue
  filled : List Nat
deriving DecidableEq, Repr

/-! ### Voices (06-10) -/

/-- Envelope states (08 R231). -/
inductive EnvMode | run | hold | done
deriving DecidableEq, Repr

/-- An envelope (08 R231): level, segment, count and length, start level, target, T or S, c, released, state, and
the starts that step 5 of R228 still has to apply. -/
structure Env where
  lev : Nat
  seg : Nat
  n : Nat
  len : Nat
  a : Nat
  b : Nat
  curve : Int
  c : Int
  released : Bool
  st : EnvMode
  pendStart : Bool
  pendRel : Bool
deriving DecidableEq, Repr

/-- A voice LFO (08 R237-R239): phase, generator state, held value. -/
structure Lfo where
  ph : Nat
  seed : Nat
  held : Int
deriving DecidableEq, Repr

/-- The zone a sample oscillator chose (06 R188) with the entry of its region at the note-on, its loop points among it. -/
structure Zone where
  region : Nat
  root : Int
  rate : Nat
  start : Nat
  len : Nat
  fmt : Nat
  ls : Nat
  le : Nat
deriving DecidableEq, Repr

/-- An oscillator of a voice (06 R176-R197): phase, last two outputs, noise state, pink rows and counter, wavetable
frames and image address, zone, playback position, direction, looped, ended, underrun in the block at hand. -/
structure Osc where
  ph : Nat
  fb1 : Int
  fb2 : Int
  seed : Nat
  rows : List Int
  cnt : Nat
  wtFrames : Nat
  wtBase : Nat
  zone : Option Zone
  pos : Int
  fwd : Bool
  looped : Bool
  ended : Bool
  under : Bool
deriving DecidableEq, Repr

/-- State of a filter (07 R212-R215): state words, comb line, sub-samples counted. -/
structure Filt where
  w1 : Int
  w2 : Int
  w3 : Int
  w4 : Int
  line : AMap Int
  t : Nat
deriving DecidableEq, Repr

/-- A status word of a voice (10 R281, 12 R349): block, ENDED, e, and of each oscillator the playback position, whether it
runs forward, whether it has looped. -/
structure VStatus where
  block : Nat
  ended : Bool
  e : Int
  play : List (Int × Bool × Bool)
deriving DecidableEq, Repr

/-- What events of one sample change in a voice (10 R294): release, sustain mark, per-note values, base and glide, and the
releases that its envelopes still have to take. -/
structure VoiceEv where
  rel : Option Nat
  relVel : Nat
  sustained : Bool
  deaf : Bool
  press : Nat
  pnc : List Nat
  npb : Nat
  bkey : Nat
  pitch : Option Int
  g0 : Int
  gStart : Nat
  gLen : Nat
  pend : List Bool
deriving DecidableEq, Repr

/-- A voice in a slot or a fade lane. `at` is the next sample to compute; `lat` the record bytes latched at the
note-on (09 R259); `slot` its slot, also once it is in a lane; `sounds` the number of the note that it sounds (a legato transition changes it); `key` the note-on's key', `bkey` the key' its pitch follows (a legato transition changes it,
09 R270); `held` the block-rate sums; `dec` the decimator histories; `lane` sample S and length F of a ramp
(10 R296); `wait` the sample at which it began to wait for a lane (10 R284); `prior` the latest sample at which an event
changed it, with what stood just before; `word` the status word that its Pod stages (03 R71), `status` those that landed. -/
structure Voice where
  part : Nat
  program : Nat
  serial : Nat
  slot : Nat
  sounds : Nat
  chan : Nat
  note : Nat
  key : Nat
  bkey : Nat
  vel : Nat
  src : Nat
  pitch : Option Int
  g0 : Int
  gStart : Nat
  gLen : Nat
  start : Nat
  rel : Option Nat
  relVel : Nat
  sustained : Bool
  deaf : Bool
  press : Nat
  pnc : List Nat
  npb : Nat
  pos : Nat
  envs : List Env
  lfos : List Lfo
  oscs : List Osc
  held : AMap Int
  xp1 : Int
  xp2 : Int
  dec1 : List Int
  dec2 : List Int
  f1 : Filt
  f2 : Filt
  lat : AMap Byte
  lane : Option (Nat × Nat)
  wait : Option Nat
  prior : Option (Nat × VoiceEv)
  word : Option VStatus
  status : List VStatus
deriving DecidableEq, Repr

/-- A note as a part keeps it: identity, key', velocity, source code, pitch of a Pitch 7.9 attribute (09 R266-R270), and
its number in the order in which note-ons were applied (04 R142). -/
structure NoteRec where
  chan : Nat
  note : Nat
  key : Nat
  vel : Nat
  src : Nat
  pitch : Option Int
  order : Nat
deriving DecidableEq, Repr

/-- A deferred note-on (10 R292): its key, the window that first deferred it, the note, its glide (09 R268), and the
part-LFO restart that its start makes (08 R242): none, or whether it found no note held. -/
structure Deferral where
  key : Nat
  window : Nat
  note : NoteRec
  g0 : Int
  gStart : Nat
  gLen : Nat
  sync : Option Bool
deriving DecidableEq, Repr

/-- A part's playing state (08 R241, R252; 09 R268-R273): controllers, pressure, bend, part-LFO phases with their
reference samples, portamento record (base, start, G0, N), note stack, held notes, notes that an all-sound-off has ended and whose
note-offs are still to come (04 R142), CUR_PROGRAM, bank, the values standing on MPE member channels, deferred notes. -/
structure PartSt where
  cc : AMap Nat
  press : Nat
  bend : Nat
  phase : AMap (Nat × Nat)
  porta : Option (Int × Nat × Int × Nat)
  stack : List NoteRec
  held : List NoteRec
  silent : List NoteRec
  program : Nat
  bank : Option Nat
  chBend : AMap Nat
  chPress : AMap Nat
  chCc : AMap Nat
  deferred : List Deferral
deriving DecidableEq, Repr

/-- Part state before the first media start. -/
def PartSt.zero : PartSt := ⟨[], 0, 2 ^ 31, [], none, [], [], [], 0, none, [], [], [], []⟩

/-- The sealed-later transaction of a Pod position for one window: a vector per bus channel (03 R81), whether its
cross-check is still to come (22 R650), the slack of a seal that is held for it (R651), the voices' terms of the
vectors, keyed as `Alloc.podOut`, the status words of its voices by serial (03 R71), and the items at the head of each of
its voice event queues that it has read (R76). -/
structure PodTxn where
  window : Nat
  position : Nat
  adds : List (Nat × List Int)
  check : Bool
  held : Option Int
  terms : AMap Int
  status : List (Nat × VStatus)
  reads : AMap Nat
deriving DecidableEq, Repr

/-- A fault-log record as it stood at detection, which the boundary at hand or the next one writes (05 R164, R168): the position
whose VOICES_LOST it takes, if any (22 R660), and its fields but SEQ and VOICES_LOST. -/
structure WaitRec where
  position : Option Nat
  draft : FaultRec
deriving DecidableEq, Repr

/-- The allocator (10): the Pod that serves each position (R278), parts that differ from `PartSt.zero`, slot voices by logical voice, lane voices by
8·position + lane, note-offs that Root generated (04 R142), the voices' terms of the vectors (keyed ((position·2^64 +
serial)·128 + channel)·64 + i), the Pod transactions that wait for their seal, the records that a boundary writes together (05 R168), the number
of note-ons applied, and the parts that held a note before the sample at hand (09 R268), and the part states at the first sample of the block
computed in the latest window (08 R252), the ended voices of slots that no other voice has taken since (10 R282, R305), by logical voice, and
the items that wait for room in their voice event queues (16 R493), oldest first. -/
structure Alloc where
  serve : List (Option Nat)
  parts : AMap PartSt
  slots : AMap Voice
  lanes : AMap Voice
  rootEvents : List EvItem
  podOut : AMap Int
  podTxns : List PodTxn
  lostRecs : List WaitRec
  noteCount : Nat
  heldWas : List Nat
  shown : AMap PartSt
  ended : AMap Voice
  voiceWaits : List (Nat × BitVec 128)
deriving DecidableEq, Repr

/-! ### Tuber (12) -/

/-- A stream (R348): voice serial, oscillator, region and its entry, frames visible to the voice and frames that
landed since the latest window, both by frame index with (left, right) values, whether its first fetch has landed. -/
structure Stream where
  serial : Nat
  osc : Nat
  zone : Zone
  frames : List (Nat × Int × Int)
  fresh : List (Nat × Int × Int)
  begun : Bool
deriving DecidableEq, Repr

/-- A descriptor in progress on a DMA channel (R353): its fields, its status so far, bytes moved, the CRC register of
R355, the addresses of source bursts whose reads are uncorrectable, whether it waits for room in its ring. -/
structure DmaJob where
  taddr : Nat
  op : Nat
  tag : Nat
  gaddr : Nat
  count : Nat
  status : Nat
  moved : Nat
  crc : Nat
  bad : List Nat
  waits : Bool
deriving DecidableEq, Repr

/-- Tuber: bytes (unlisted bytes 0), region states, verify states and results that differ from 0, heads held (by region,
frames and format), streams open, verify pass under way (region), jobs by channel, retraining, the destination of the latest
move and whether it has switched, regions that an uncorrectable error has faulted and that no rewrite with a VERIFY pass has cleared (R356), by region: 1 not
rewritten, 2 rewritten. -/
structure Tuber where
  mem : AMap Byte
  region : AMap Nat
  verify : AMap Nat
  verifyCrc : AMap Nat
  heads : AMap (Nat × Nat)
  streams : List Stream
  verifying : Option Nat
  jobs : AMap (Option DmaJob)
  retraining : Bool
  moveTo : Nat
  switched : Bool
  faulted : AMap Nat
deriving DecidableEq, Repr

/-! ### Link ports (17) -/

/-- What a frame that the device sends is: a service frame, a data frame of DATA_RING d, an isochronous frame of
output stream s. -/
inductive TxKind | service | data (d : Nat) | iso (s : Nat)
deriving DecidableEq, Repr

/-- A frame for a node. -/
structure TxFrame where
  node : Nat
  kind : TxKind
  bytes : List Byte
deriving DecidableEq, Repr

/-- A frame that was sent and is not yet released (R540): the cycle and the lane that carried it. -/
structure SentFrame where
  cycle : Nat
  lane : Nat
  frame : TxFrame
deriving DecidableEq, Repr

/-- A Link port: frames that wait to be sent; frames sent and not released; node words of the latest valid header
and frames sent since it, keyed 4·node + kind; the credits last advertised and frames received since; output
stream buffers (SIX, the words of the port's 64 channels); words of a partial input item by stream; POS and EPOCH of the frames written by
stream; latest 64 DSEQ accepted by ring and the DSEQ count sent by ring; the failed lane; the partner's latest
cycle; cycles of silence left after RESYNC; the head's MAP_CRC; chain commands for the next header; landings at
the head in this cycle; frames forwarded in this cycle; the header last sent; the block of the latest counted drop
by stream; the version whose maps stay in use until the next cycle (R545); the latest two ratio estimates, newest first
(R532); whether training has completed step 4 (R508); cycles of TS2 lock on the failed lane (R542); whether a
port that is dropped from its chain runs on two lanes (R536, R539). -/
structure Link where
  wait : List TxFrame
  sent : List SentFrame
  words : List (List Nat)
  used : AMap Nat
  adv : List Nat
  got : AMap Nat
  unsent : AMap (List (Nat × List Int))
  part : AMap (List Nat)
  isoSeen : AMap (List (Nat × Nat))
  dseqIn : AMap (List Nat)
  dseqOut : AMap Nat
  failed : Option Nat
  rxCycle : Nat
  mute : Nat
  mapCrc : Option Nat
  cmds : List (Nat × Nat)
  landed : List (Nat × Bool)
  forwarded : List (List Byte)
  header : List Byte
  dropBlock : AMap (Option Nat)
  old : Option Version
  ratios : List Nat
  trained : Bool
  lock : Nat
  again : List TxFrame
  both : Option Nat
  two : Bool
deriving DecidableEq, Repr

/-- A Link port after reset. -/
def Link.zero : Link :=
  ⟨[], [], [], [], [], [], [], [], [], [], [], none, 0, 0, none, [], [], [], [], [], none, [], false, 0, [], none, false⟩

/-! ### Serial audio ports (18) -/

/-- A serial audio port: output FIFO of (SIX, slot words), the frame sent last, whether sending has begun, words of a
partial input item, the boundary that last enabled it, whether a synchronous port's frame of the latest engine sample has still
to start; whether the latest engine sample's input frame is still to be written (R558), the input frames received, newest first,
each with the count of engine samples at which it came, that count now (R560), and framing errors since a valid frame. Slot words stand
left-justified in 32 bits. -/
structure Sap where
  fifo : List (Nat × List Int)
  last : List Int
  sending : Bool
  part : List Nat
  since : Nat
  due : Bool
  inDue : Bool
  frames : List (Int × List Nat)
  pos : Int
  bad : Nat
deriving DecidableEq, Repr

/-- A port after reset. -/
def Sap.zero : Sap := ⟨[], [], false, [], 0, false, false, [], 0, 0⟩

/-! ### Analog outputs (19) -/

/-- What a load gives a CV channel: a code, with the CV_RANGE and VREF_SEL in force for it (R589). -/
structure CvSet where
  code : Nat
  range : Nat
  vref : Nat
deriving DecidableEq, Repr

/-- A CV channel: pending code, what stands at the output, what the end of a deglitch hold applies, what was loaded during the
hold. -/
structure CvCh where
  pending : Nat
  out : CvSet
  hold : Option CvSet
  next : Option CvSet
deriving DecidableEq, Repr

/-- A CV channel after reset: its default CLEAR_CODE. Its pending code has no reset value in the spec. DESIGN CHOICE: log entry 10. -/
def CvCh.zero : CvCh := ⟨0, ⟨0x20000, 0, 0⟩, none, none⟩

/-- An audio channel's interpolator (R575, R576): the codes that it has taken, newest first, and the first SIX that it takes. -/
structure Dac where
  hist : List Int
  since : Nat
deriving DecidableEq, Repr

/-- An interpolator with empty history. -/
def Dac.zero : Dac := ⟨[], 0⟩

/-- The outputs: codes of the block that leaves, by output identifier (03 R91); samples on the die-to-die interface
(SIX, codes of AOUT0-7, codes of CV0-15); interpolators; CV channels; whether
sample 2·B has arrived in the epoch; the level of CLRCV. -/
structure Analog where
  codes : AMap (List Int)
  pipe : List (Nat × List Int × List Int)
  dac : AMap Dac
  cv : AMap CvCh
  arrived : Bool
  clrPin : Bool
deriving DecidableEq, Repr

/-! ### Sense chain (20) -/

/-- A strike machine since the start of the main path (R612): before its first conversion, with a key that was down then and
has not returned to REST, free. -/
inductive KeyAt | fresh | held | free
deriving DecidableEq, Repr

/-- A sensor: estimate m, sum and count of the decimator, conversions since t1 or t2, its key since the main path started. -/
structure Sensor where
  m : Int
  sum : Int
  cnt : Nat
  t : Nat
  key : KeyAt
deriving DecidableEq, Repr

/-- A sensor after reset. -/
def Sensor.zero : Sensor := ⟨0, 0, 0, 0, .fresh⟩

/-- The sense engine: scans counted, sensors, ENV_ST by input, strike items that wait, SMX pins, the address before their latest
scan (R599), main path derated off, the sensor of the latest coarse value by input (none before the first). -/
structure Sense where
  scan : Nat
  sensors : AMap Sensor
  env : AMap Int
  strike : List (BitVec 128)
  smx : Nat
  smxWas : Nat
  derated : Bool
  sampled : AMap (Option Nat)
deriving DecidableEq, Repr

/-! ### Timers and UARTs (21) -/

/-- A timer: prescaler accumulator, capture edges counted, a pulse on its pin that the next tick ends. -/
structure Timer where
  acc : Nat
  edges : Nat
  pulse : Bool
deriving DecidableEq, Repr

/-- A timer after reset. -/
def Timer.zero : Timer := ⟨0, 0, false⟩

/-- A receive item (R637): characters and FLAGS. -/
structure UItem where
  chars : List Nat
  flags : Nat
deriving DecidableEq, Repr

/-- The MIDI 1.0 parser of 11 R316: running status (0 none), data bytes of the message in progress, whether a system
exclusive message is in progress, and its first bytes. -/
structure Midi where
  status : Nat
  data : List Nat
  sysex : Bool
  sx : List Nat
deriving DecidableEq, Repr

/-- A UART: receive FIFO (character, 1 framing error + 2 parity error + 4 break + 8 characters lost before it), receive item
being filled, a closed one that waits, characters lost before the next to arrive, and before the next item's first; transmit FIFO, the character in transmission, whole frames or
replies that wait for the FIFO, XON or XOFF to send first, whether XOFF was sent last; the candidate of host mode
(bytes, an escape seen, spoilt); the parser and the items of a message that waits for room; the sleep buffer. -/
structure Uart where
  rx : List (Nat × Nat)
  item : UItem
  closed : Option UItem
  lost : Bool
  gap : Bool
  tx : List Nat
  sending : Option (List Bool)
  frames : List (List Nat)
  flow : List Nat
  xoff : Bool
  cand : Option (List Byte)
  esc : Bool
  bad : Bool
  midi : Midi
  midiWait : Option EvWait
  sleep : List (Nat × Nat)
deriving DecidableEq, Repr

/-- A UART after reset. -/
def Uart.zero : Uart :=
  ⟨[], ⟨[], 0⟩, none, false, false, [], none, [], [], false, none, false, false, ⟨0, [], false, []⟩, none, []⟩

/-! ### Power, slack controller, thermal monitor, TAP (23) -/

/-- Where the device stands between reset and running: held in a reset of a kind of R679, stopped by the fuse check
(R685), awake, asleep. -/
inductive Phase | held (kind : Nat) | stopped | awake | asleep
deriving DecidableEq, Repr

/-- Power: phase, an accepted RESET_REQ and SLEEP, the ports whose answers to them come first (R681, R686), whether LPDDR5 kept its contents at the latest
reset (12 R360), microseconds asleep since that reset (05 R159). -/
structure Power where
  phase : Phase
  resetReq : Option Nat
  sleepReq : Bool
  askers : List Nat
  kept : Bool
  sleptUs : Nat
deriving DecidableEq, Repr

/-- The slack controller (R691-R693): low_run, last_v, last_ds, SLACK_WORST of the latest 32 windows of the epoch
(newest first), the window whose end ends the hold of a takeover that has sealed (R655), and
slack reported so far, keyed 256·window + unit. -/
structure Ctl where
  lowRun : Nat
  lastV : Int
  lastDs : Int
  hist : List Int
  hold : Option Nat
  slack : AMap Int
deriving DecidableEq, Repr

/-- The thermal monitor: the latest conversions, evaluations counted, last_q, last_dt. -/
structure Therm where
  conv : List Int
  k : Nat
  lastQ : List Int
  lastDt : Int
deriving DecidableEq, Repr

/-- The TAP (R704): instruction register, boundary register with one bit for each digital I/O ball, and the levels that SAMPLE or EXTEST
captured last. -/
structure Tap where
  ir : Nat
  bsr : Nat
  sampled : Nat
deriving DecidableEq, Repr

/-- Self-tests under way (unit, whether it is the periodic one), units that are taking work over (R653, R662), units
that retire and the restore at the next boundary (22 R663-R667), and the retiring units past their boundary that
still complete their work (R663). -/
structure Spares where
  tests : List (Nat × Bool)
  taking : List Nat
  retire : List Nat
  restore : Bool
  handing : List Nat
deriving DecidableEq, Repr

/-- The device. -/
structure Dev where
  obj : AMap Nat
  ver : VerSt
  ports : AMap Port
  live : List Live
  free : Nat
  faults : List FaultRec
  cycles : Nat
  media : Media
  time : TimeSt
  gourd : Gourd
  stalk : Stalk
  cores : AMap Core
  units : AMap Nat
  alloc : Alloc
  tuber : Tuber
  links : AMap Link
  saps : AMap Sap
  analog : Analog
  sense : Sense
  timers : AMap Timer
  uarts : AMap Uart
  power : Power
  ctl : Ctl
  therm : Therm
  tap : Tap
  spares : Spares
deriving DecidableEq, Repr

/-- The state: the commands that wait, first in first out, and the device. -/
structure State where
  pending : List Instr
  dev : Dev
deriving DecidableEq, Repr

/-! ### Reset (04 R105, 23 R682) -/

/-- Spares after reset: local units P8, P17, P26, P35 and M4, M9, M14, M19 (01 R14). -/
def resetUnits : AMap Nat := [(8, 1), (17, 1), (26, 1), (35, 1), (0x44, 1), (0x49, 1), (0x4E, 1), (0x53, 1)]

/-- Pods by position after reset: eight of each quadrant, none in the positions of capacity mode (10 R278). -/
def resetServe : List (Option Nat) :=
  [some 0, some 1, some 2, some 3, some 4, some 5, some 6, some 7] ++
  [some 9, some 10, some 11, some 12, some 13, some 14, some 15, some 16] ++
  [some 18, some 19, some 20, some 21, some 22, some 23, some 24, some 25] ++
  [some 27, some 28, some 29, some 30, some 31, some 32, some 33, some 34] ++ [none, none, none, none]

/-- The device held in a power-on reset: every object at its default, every buffer empty, memory zero.
DESIGN CHOICE: log entry 10. -/
def Dev.reset : Dev where
  obj := []
  ver := ⟨Version.zero, [], none, none, none, .idle, none, 0, none, false⟩
  ports := []
  live := []
  free := 0
  faults := []
  cycles := 0
  media := ⟨0, 0, false, none, false⟩
  time := ⟨none, [], 0⟩
  gourd := ⟨[], [], [], [], [], [], [], [], []⟩
  stalk := ⟨[], [], [], [], [], [], [], [], []⟩
  cores := []
  units := resetUnits
  alloc := ⟨resetServe, [], [], [], [], [], [], [], 0, [], [], [], []⟩
  tuber := ⟨[], [], [], [], [], [], none, [], false, 0, false, []⟩
  links := []
  saps := []
  analog := ⟨[], [], [], [], false, false⟩
  sense := ⟨0, [], [], [], 0, 0, false, []⟩
  timers := []
  uarts := []
  power := ⟨.held 0, none, false, [], false, 0⟩
  ctl := ⟨0, -32, -32, [], none, []⟩
  therm := ⟨[0, 0, 0, 0], 0, [-32, -32, -32, -32], -32⟩
  tap := ⟨0xFF, 0, 0⟩
  spares := ⟨[], [], [], false, []⟩

/-- Right after a power-on reset: nothing waits, and the device is held until RESET_RELEASE. -/
def State.reset : State := ⟨[], Dev.reset⟩

end Sys2Proof.Machine
end

