-- ==== Sys2Proof/Machine/Ops.lean ====
section
/-!
DEFINITION. Sys2Proof/Machine/Ops.lean: the named operations over State that every family uses: objects and
configuration values by index.sub, saturating counters (04 R737), the fault log (05 R163-R168), the void cause
(03 R89), free values, rates and block length, unit codes.
-/
namespace Sys2Proof.Machine

/-- The value listed at key a. -/
def mfind {α : Type} : AMap α → Nat → Option α
  | [], _ => none
  | (k, v) :: r, a => if a = k then some v else mfind r a

/-- Write a value whose unlisted reading is given: the entry is dropped when the value equals it. -/
def mset {α : Type} [DecidableEq α] (dflt : α) (m : AMap α) (a : Nat) (v : α) : AMap α :=
  if v = dflt then mdel m a else mins m a v

/-- The stored value of object idx.sub (window instance inst). -/
def oGet (d : Dev) (idx sub : Nat) (inst : Nat := 0) : Nat :=
  (mfind d.obj (okey idx sub inst)).getD (defaultAt (okey idx sub inst))

/-- Store a value in object idx.sub. -/
def oSet (d : Dev) (idx sub : Nat) (v : Nat) (inst : Nat := 0) : Dev :=
  { d with obj := mset (defaultAt (okey idx sub inst)) d.obj (okey idx sub inst) v }

/-- Store a signed value in an object of n bits. -/
def oSetI (d : Dev) (idx sub n : Nat) (v : Int) : Dev := oSet d idx sub (wrapU n v)

/-- The greatest value of an object's type (R737). -/
def topOf (idx sub : Nat) : Nat := match findObj idx sub with
  | some r => r.row.ty.top
  | none => 0

/-- Add n happenings to a counter object, which saturates at the maximum of its type (04 R737). -/
def bump (d : Dev) (idx sub : Nat) (n : Nat := 1) (inst : Nat := 0) : Dev :=
  oSet d idx sub (min (topOf idx sub) (oGet d idx sub inst + n)) inst

/-- An RS value of a version. -/
def vGet (v : Version) (idx sub : Nat) (inst : Nat := 0) : Nat :=
  (mfind v.vals (okey idx sub inst)).getD (defaultAt (okey idx sub inst))

/-- Write an RS value of a version. -/
def vSet (v : Version) (idx sub : Nat) (x : Nat) (inst : Nat := 0) : Version :=
  { v with vals := mset (defaultAt (okey idx sub inst)) v.vals (okey idx sub inst) x }

/-- An RS value of the active version. -/
def rs (d : Dev) (idx sub : Nat) (inst : Nat := 0) : Nat := vGet d.ver.active idx sub inst

/-- The port record of code p. -/
def port (d : Dev) (p : Nat) : Port := mget Port.zero d.ports p

/-- Change the port record of code p. -/
def modPort (d : Dev) (p : Nat) (f : Port → Port) : Dev := { d with ports := mmod Port.zero d.ports p f }

/-- Subscribers of an object are notified at their next evaluation, whether or not its value has changed (02 R44, R51,
R59; 03 R93; 04 R145). DEDUCED: log entry 24. -/
def remind (d : Dev) (idx sub : Nat) : Dev :=
  { d with ports := d.ports.map (fun c => (c.1, { c.2 with
      subs := c.2.subs.map (fun s => if s.idx = idx ∧ s.sub = sub then { s with last := none } else s) })) }

/-- The next free value's number, and the state with the counter advanced. DESIGN CHOICE: log entry 3. -/
def takeFree (d : Dev) : Nat × Dev := (d.free, { d with free := d.free + 1 })

/-! ### Rates (01 R18, 02 R29-R41) -/

/-- B of the active version. -/
def blockLen (d : Dev) : Nat := rs d 0x2010 0x04

/-- fs_e in Hz for an ENGINE_RATE code (02 R66). -/
def rateHz (code : Nat) : Nat := nth 48000 [44100, 48000, 88200, 96000, 176400, 192000] code

/-- fs_e of the active version. -/
def engineRate (d : Dev) : Nat := rateHz (rs d 0x2010 0x01)

/-- Rate group 1, 2 or 3 of an ENGINE_RATE code (01 R18). -/
def rateGroup (code : Nat) : Nat := code / 2 + 1

/-- Slots per Pod, S of 01 R18. -/
def slotsOf (code : Nat) : Nat := nth 32 [32, 16, 8] (code / 2)

/-- S at the active rate. -/
def slotCount (d : Dev) : Nat := slotsOf (rs d 0x2010 0x01)

/-- Fine-clock frequency of the rate's family (02 R30). -/
def fineHz (code : Nat) : Nat := if code % 2 = 0 then 22579200 else 24576000

/-- HORIZON_SAMPLES (02 R41): floor(2^24·fs_e / 10^6). -/
def horizon (d : Dev) : Nat := 2 ^ 24 * engineRate d / 10 ^ 6

/-- Nominal RATE of an ENGINE_RATE code (02 R56). -/
def nominalRate (code : Nat) : Nat := rateHz code * 2 ^ 64 / 10 ^ 9

/-- MEDIA_STATE. -/
def mediaState (d : Dev) : Nat := oGet d 0x2000 0x02

/-- MEDIA_STATE is 2 or 3. -/
def mediaRuns (d : Dev) : Bool := 2 ≤ mediaState d

/-- SIX_NOW. -/
def sixNow (d : Dev) : Nat := oGet d 0x2000 0x04

/-- BLOCK_NOW (02 R66). -/
def blockNow (d : Dev) : Nat := sixNow d / blockLen d

/-- UPTIME_MS (05 R159) from the Link cycles since reset: eight cycles of 125 µs to the millisecond. -/
def uptimeMs (d : Dev) : Nat := (oGet d 0x8230 0x07 + d.power.sleptUs + 125 * d.cycles) / 1000

/-- SILICON_REV (05 R158): two fused nibbles, each from 1. -/
def siliconRev : Nat := 16 * (1 + Config.siliconRev / 16 % 15) + 1 + Config.siliconRev % 15

/-- Frames of the head held for region r (12 R345); 0 when none is. -/
def headLen (d : Dev) (r : Nat) : Nat := (mget (0, 0) d.tuber.heads r).1

/-! ### Void cause (03 R89) -/

/-- Set a bit of VOID_CAUSE for an affected block: VOID_BLOCK keeps the lowest block of the epoch. -/
def voidAt (d : Dev) (bit block : Nat) : Dev :=
  let c := oGet d 0x0110 0x07
  let b := oGet d 0x0110 0x08
  let d := oSet d 0x0110 0x07 (c ||| 2 ^ bit)
  oSet d 0x0110 0x08 (if c = 0 then block else min b block)

/-! ### Fault log (05 R162-R168) -/

/-- The lowest SEQ held, 0 for an empty log. -/
def oldestSeq : List FaultRec → Nat
  | [] => 0
  | r :: l => l.foldl (fun a x => min a x.seq) r.seq

/-- FAULTS and LAST_SEQ of the Pod or core whose code the UNIT field of a record holds (22 R672). -/
def countRecord (d : Dev) (unit seq : Nat) : Dev :=
  if unit < 36 then oSet (bump d (0x8100 + unit) 0x02) (0x8100 + unit) 0x03 seq
  else if 0x40 ≤ unit ∧ unit < 0x54 then oSet (bump d (0x8100 + unit) 0x02) (0x8100 + unit) 0x03 seq
  else d

/-- A record as it stands at detection (R164): it takes its SEQ when it is written. -/
def draftFault (d : Dev) (kind unit action repl lost detail addr : Nat) : FaultRec :=
  ⟨0, oGet d 0x2000 0x03, blockNow d, uptimeMs d % 2 ^ 32, kind, unit, action, repl, lost, detail, addr⟩

/-- Write one record and update FAULT_SEQ and FAULT_OLDEST (R163, R168). -/
def writeFault (d : Dev) (r : FaultRec) : Dev :=
  let s := oGet d 0x0300 0x01 + 1
  let replaced := d.faults.any (fun x => x.seq + 64 = s)
  let log := d.faults.filter (fun x => x.seq + 64 ≠ s) ++ [{ r with seq := s }]
  let d := if replaced then bump d 0x0300 0x03 else d
  let d := countRecord (oSet d 0x0300 0x01 s) r.unit s
  oSet { d with faults := log } 0x0300 0x02 (oldestSeq log)

/-- Write the record of what is detected now. -/
def addFault (d : Dev) (kind unit action repl lost detail addr : Nat) : Dev :=
  writeFault d (draftFault d kind unit action repl lost detail addr)

/-- Keep the record of what is detected now for the boundary that writes it, with the position whose VOICES_LOST it takes
(R168, 22 R660). -/
def holdFault (d : Dev) (position : Option Nat) (r : FaultRec) : Dev :=
  { d with alloc := { d.alloc with lostRecs := d.alloc.lostRecs ++ [⟨position, r⟩] } }

/-- The bytes of a record (R164). -/
def FaultRec.bytes (r : FaultRec) : List Byte :=
  toLE 4 r.seq ++ toLE 4 r.epoch ++ toLE 8 r.block ++ toLE 4 r.uptime ++ toLE 1 r.kind ++ toLE 1 r.unit ++
  toLE 1 r.action ++ toLE 1 r.repl ++ toLE 2 r.lost ++ toLE 2 r.detail ++ toLE 4 r.addr

/-- The 32 bytes of log slot i: its record, or zeros. -/
def faultSlot (d : Dev) (i : Nat) : List Byte :=
  match d.faults.find? (fun r => (r.seq - 1) % 64 = i) with
  | some r => r.bytes
  | none => List.replicate 32 0#8

/-- Remove every record with SEQ at or below s (R167). -/
def clearFaults (d : Dev) (s : Nat) : Dev :=
  let log := d.faults.filter (fun x => s < x.seq)
  oSet { d with faults := log } 0x0300 0x02 (oldestSeq log)

end Sys2Proof.Machine
end

