-- ==== Sys2Proof/Machine/Operands.lean ====
section
/-!
DEFINITION. Sys2Proof/Machine/Operands.lean: the registers of a Marrow thread and every operand form of the Marrow
instruction set (14 R400-R410, R428; 15 R439-R463): scalars, pairs, lanes, wide elements, accumulators, circular
addresses, branch conditions, REP loops.
-/
namespace Sys2Proof.Machine

/-- G register n; G0 reads 0 (14 R400). -/
def gR (r : Regs) (n : BitVec 5) : Word := if n = 0 then 0 else mget 0 r.g n.toNat

/-- Write G register n; writes of G0 are ignored. -/
def gW (r : Regs) (n : BitVec 5) (v : Word) : Regs := if n = 0 then r else { r with g := mput 0 r.g n.toNat v }

/-- Pair Gn:Gn+1, low half in Gn; the null pair G0:G1 reads 0 (15 R440). -/
def pairR (r : Regs) (n : BitVec 5) : Nat := if n = 0 then 0 else (gR r n).toNat + 2 ^ 32 * (gR r (n + 1)).toNat

/-- Write a pair; the null pair takes nothing and leaves G1 unchanged. -/
def pairW (r : Regs) (n : BitVec 5) (v : Nat) : Regs :=
  if n = 0 then r else gW (gW r n (BitVec.ofNat 32 v)) (n + 1) (BitVec.ofNat 32 (v / 2 ^ 32))

/-- V register n. -/
def vR (r : Regs) (n : BitVec 4) : BitVec 128 := mget 0 r.v n.toNat

/-- Write V register n. -/
def vW (r : Regs) (n : BitVec 4) (x : BitVec 128) : Regs := { r with v := mput 0 r.v n.toNat x }

/-- Accumulator n. -/
def acR (r : Regs) (n : BitVec 2) : BitVec 320 := mget 0 r.ac n.toNat

/-- Write accumulator n. -/
def acW (r : Regs) (n : BitVec 2) (x : BitVec 320) : Regs := { r with ac := mput 0 r.ac n.toNat x }

/-- Address register kinds of AMOV (15 R448): 0 AD, 1 BS, 2 LN, 3 MD. -/
def aR (r : Regs) (kind : BitVec 2) (i : BitVec 3) : Word :=
  mget 0 (if kind = 0 then r.ad else if kind = 1 then r.bs else if kind = 2 then r.ln else r.md) i.toNat

/-- Write an address register. -/
def aW (r : Regs) (kind : BitVec 2) (i : BitVec 3) (v : Word) : Regs :=
  if kind = 0 then { r with ad := mput 0 r.ad i.toNat v }
  else if kind = 1 then { r with bs := mput 0 r.bs i.toNat v }
  else if kind = 2 then { r with ln := mput 0 r.ln i.toNat v }
  else { r with md := mput 0 r.md i.toNat v }

/-- Lane l of a vector (14 R400). -/
def lane (v : BitVec 128) (l : Nat) : BitVec 16 := v.extractLsb' (16 * l) 16

/-- A vector from its lanes. -/
def vOf (f : Nat → BitVec 16) : BitVec 128 := f 7 ++ f 6 ++ f 5 ++ f 4 ++ f 3 ++ f 2 ++ f 1 ++ f 0

/-- Lane l of an accumulator. -/
def acLane (a : BitVec 320) (l : Nat) : BitVec 40 := a.extractLsb' (40 * l) 40

/-- An accumulator from its lanes. -/
def acOf (f : Nat → BitVec 40) : BitVec 320 := f 7 ++ f 6 ++ f 5 ++ f 4 ++ f 3 ++ f 2 ++ f 1 ++ f 0

/-- Lane l replaced. -/
def setLane (v : BitVec 128) (l : Nat) (x : BitVec 16) : BitVec 128 := vOf (fun i => if i = l then x else lane v i)

/-- 32-bit element j of a vector: lanes 2j+1 (high) and 2j (low) (14 R408). -/
def elem (v : BitVec 128) (j : Nat) : Word := lane v (2 * j + 1) ++ lane v (2 * j)

/-- Element j replaced. -/
def setElem (v : BitVec 128) (j : Nat) (x : Word) : BitVec 128 :=
  vOf (fun i => if i = 2 * j then x.extractLsb' 0 16 else if i = 2 * j + 1 then x.extractLsb' 16 16 else lane v i)

/-- Wide accumulator w of the pair ac:ac+1: bits [39:0] in lane 4w of the even register, [79:40] of the odd
(14 R408). -/
def wideR (r : Regs) (ac : BitVec 2) (w : Nat) : Int :=
  (acLane (acR r (ac + 1)) (4 * w) ++ acLane (acR r ac) (4 * w) : BitVec 80).toInt

/-- Write wide accumulator w; the lanes 4w + 1 to 4w + 3 keep their values. -/
def wideW (r : Regs) (ac : BitVec 2) (w : Nat) (x : Int) : Regs :=
  let y : BitVec 80 := BitVec.ofInt 80 x
  let r := acW r ac (acOf (fun i => if i = 4 * w then y.extractLsb' 0 40 else acLane (acR r ac) i))
  acW r (ac + 1) (acOf (fun i => if i = 4 * w then y.extractLsb' 40 40 else acLane (acR r (ac + 1)) i))

/-- The updated address of R428 for AD_a and a signed modifier m. -/
def circ (r : Regs) (a : BitVec 3) (m : Int) : Word :=
  let ad := (aR r 0 a).toNat
  let bs := (aR r 1 a).toNat
  let ln := (aR r 2 a).toNat
  if ln = 0 then BitVec.ofInt 32 (ad + m)
  else BitVec.ofInt 32 (bs + ((ad : Int) - bs + m) % ln)

/-- Post-modify AD_a by m (14 R428). -/
def postMod (r : Regs) (a : BitVec 3) (m : Int) : Regs := aW r 0 a (circ r a m)

/-- The core address of a format-M access and the registers after its address update (15 R449). -/
def memAddr (r : Regs) (a : BitVec 3) (mode : BitVec 2) (imm : BitVec 12) : Nat × Regs :=
  let ad := (aR r 0 a).toNat
  if mode = 0 then (ad, r)
  else if mode = 1 then (ad, postMod r a (aR r 3 a).toInt)
  else if mode = 2 then (ad, postMod r a imm.toInt)
  else ((circ r a imm.toInt).toNat, r)

/-! ### Field values a form admits (15 R439-R441); any other value makes the word undefined -/

/-- A register of a pair is even. -/
def evenReg (r : BitVec 5) : Bool := !r.getLsbD 0

/-- A format-M word: imm is 0 in modes 0 and 1. -/
def memOk (o : MemOp) : Bool := o.imm == 0 || o.mode == 2 || o.mode == 3

/-- A format-M word of a 64-bit form. -/
def memPairOk (o : MemOp) : Bool := memOk o && evenReg o.r

/-- VLD and VST: bit 0 of the r field is 0. -/
def memVecOk (o : MemOp) : Bool := memOk o && evenReg o.r

/-- A 64-bit atomic: pairs d and s. -/
def atomPairOk (o : AtomOp) : Bool := evenReg o.d && evenReg o.s

/-- CAS: s ≤ 30. -/
def casOk (o : AtomOp) : Bool := o.s.toNat ≤ 30

/-- CAS.D64: even registers and s ≤ 28. -/
def casPairOk (o : AtomOp) : Bool := atomPairOk o && o.s.toNat ≤ 28

/-- AMOD: imm is 0 with SRC 0. -/
def amodOk (src : Bool) (imm : BitVec 16) : Bool := src || imm == 0

/-- VMAC: k is 0 without L. -/
def macOk (o : MacOp) : Bool := o.l || o.k == 0

/-- A signed k from −8 to +15. -/
def kOk (k : BitVec 5) : Bool := -8 ≤ k.toInt

/-- VEXTR: H only with W, ac 0 or 2 with W. -/
def extrOk (o : ExtrOp) : Bool := kOk o.k && (!o.h || o.w) && (!o.w || !o.ac.getLsbD 0)

/-- Branch conditions of 15 R446 on ST. -/
def condHolds (st : Word) (c : BitVec 4) : Bool :=
  let n := st.getLsbD 0
  let z := st.getLsbD 1
  let cy := st.getLsbD 2
  let v := st.getLsbD 3
  match c.toNat with
  | 0 => z | 1 => !z | 2 => cy | 3 => !cy | 4 => n | 5 => !n | 6 => v | 7 => !v
  | 8 => cy && !z | 9 => !cy || z | 10 => n == v | 11 => n != v
  | 12 => !z && n == v | 13 => z || n != v | 14 => true
  | _ => st.extractLsb' 4 8 != 0

/-- The loop step of 15 R443 after an instruction that did not transfer control: the registers with the next
PC, and whether the return to RSTART refills the prefetch buffer. -/
def loopStep (r : Regs) : Regs × Bool :=
  if r.pc = r.rend ∧ 2 ≤ r.rcnt.toNat then ({ r with pc := r.rstart, rcnt := r.rcnt - 1 }, true)
  else if r.pc = r.rend ∧ r.rcnt = 1 then ({ r with pc := r.pc + 1, rcnt := 0 }, false)
  else ({ r with pc := r.pc + 1 }, false)

/-- A taken BR, JMP, JAL or JR: RCNT := 0 and the target (15 R443). -/
def jumpTo (r : Regs) (t : BitVec 13) : Regs := { r with pc := t, rcnt := 0 }

end Sys2Proof.Machine
end

