-- ==== Sys2Proof/WellFormed.lean ====
section
/-!
DEFINITION. Sys2Proof/WellFormed.lean: which commands name something that exists: the operands of Marrow instructions
(15 R439-R441), ports, units and channels. A command that does not is refused nothing: an instruction word outside its
form acts as an undefined one (R441), and a command on a part that the device does not have changes nothing.
-/
namespace Sys2Proof
open Machine

/-- The core that a Marrow command names. -/
def Instr.core : Instr → Option Nat
  | .kEnd n | .kYield n | .kWait n | .kSleep n | .kSignal n | .kQget n _ | .kQput n | .kQcount n | .kPost n | .kBlock n
  | .kUndefined n _ | .fenceR n | .fenceW n | .fenceRw n | .fenceI n | .rep n _ _ | .repReg n _ _ | .mfs n _ | .mts n _
  | .stclr n _ | .mfbx n _ | .mtbx n _ | .add n _ _ _ | .sub n _ _ _ | .and n _ _ _ | .or n _ _ _ | .xor n _ _ _
  | .shl n _ _ _ | .shr n _ _ _ | .sar n _ _ _ | .shli n _ _ _ | .shri n _ _ _ | .sari n _ _ _ | .mul n _ _ _
  | .mulh n _ _ _ | .mulhu n _ _ _ | .mulq n _ _ _ | .adds n _ _ _ | .subs n _ _ _ | .min n _ _ _ | .max n _ _ _
  | .clz n _ _ | .addi n _ _ _ | .subi n _ _ _ | .andi n _ _ _ | .ori n _ _ _ | .xori n _ _ _ | .movhi n _ _
  | .br n _ _ | .jmp n _ | .jal n _ _ | .jr n _ | .ldb n _ _ | .ldbu n _ _ | .ldh n _ _ | .ldhu n _ _ | .ldw n _ _
  | .ldd n _ _ | .stb n _ _ | .sth n _ _ | .stw n _ _ | .std n _ _ | .vld n _ _ _ | .vst n _ _ _ | .atomicAdd n _ _
  | .atomicAddD64 n _ _ | .swap n _ _ | .swapD64 n _ _ | .cas n _ _ | .casD64 n _ _ | .cadd n _ _ _ | .ldp n _ _ _ _
  | .stp n _ _ _ _ | .amov n _ _ _ _ | .amod n _ _ _ | .vmac n _ | .vmsu n _ | .vmacs n _ | .vmsus n _ | .vwmac n _
  | .vwmsu n _ | .vwmacs n _ | .vwmsus n _ | .vextr n _ | .vadd n _ _ _ | .vadds n _ _ _ | .vsub n _ _ _ | .vsubs n _ _ _
  | .vmulq n _ _ _ | .vand n _ _ _ | .vor n _ _ _ | .vxor n _ _ _ | .vshl n _ _ _ | .vshls n _ _ _ | .vsar n _ _ _
  | .vsrr n _ _ _ | .vmin n _ _ _ | .vmax n _ _ _ | .vabs n _ _ | .vneg n _ _ | .vmov n _ _ | .aclr n _ | .acld n _ _ _
  | .vins n _ _ _ | .vext n _ _ _ | .vbc n _ _ | .vrot n _ _ _ | .vinsw n _ _ _ | .vextw n _ _ _ | .vspl n _ _ _
  | .vsum n _ _ | .bexp n _ | .bnorm n _ _ _ _ | .undefinedInstruction n => some n
  | _ => none

/-- The fields of a Marrow instruction fit its form (15 R439-R441, R449-R461). -/
def Instr.fieldsOk : Instr → Bool
  | .kUndefined _ k => 10 ≤ k.toNat
  | .ldb _ o _ | .ldbu _ o _ | .ldh _ o _ | .ldhu _ o _ | .ldw _ o _ | .stb _ o _ | .sth _ o _ | .stw _ o _ => memOk o
  | .ldd _ o _ | .std _ o _ => memPairOk o
  | .vld _ o _ _ | .vst _ o _ _ => memVecOk o
  | .atomicAddD64 _ o _ | .swapD64 _ o _ => atomPairOk o
  | .cas _ o _ => casOk o
  | .casD64 _ o _ => casPairOk o
  | .amod _ _ src imm => amodOk src imm
  | .vmac _ o | .vmsu _ o | .vmacs _ o | .vmsus _ o => macOk o
  | .vextr _ o => extrOk o
  | .acld _ _ _ k => kOk k
  | _ => true

/-- The service port that a request or a write names (04 R106). -/
def Instr.port : Instr → Option Nat
  | .read p _ | .write p _ | .blockRead p _ | .blockWrite p _ | .commit p _ _ | .revert p _ _ | .abort p _
  | .subscribe p _ | .unsubscribe p _ | .event p _ | .unfreeze p _ | .identify p _
  | .selfUnfreeze p | .windowSelect p _ _ _ | .mediaStart p _ | .mediaStop p _ | .mediaStartAbandon p _
  | .refReselect p _ | .linkTimeSet p _ _ | .eventQueueEntry p | .rejoin p _ _ _ | .verify p _ | .relocGo p _
  | .relocAbort p _ | .cntValue p _ _ | .kick p _ | .levelWrite p _ _ | .itemWrite p _ _ | .take p _ | .flush p _
  | .digestMark p _ _ | .faultClear p _ | .retire p _ _ | .readmit p _ _ | .restore p _ | .cvClear p _ _
  | .tcCntWrite p _ _ _ | .tcCmpWrite p _ _ _ | .txResume p _ _ | .resetReqCold p _ | .resetReqWarm p _
  | .sleepRequest p _ | .invalidServiceFrame p _ _ => some p
  | .serviceFrameDiscard f => some f.port
  | _ => none

/-- A number that may be absent is below a bound. -/
def below (o : Option Nat) (n : Nat) : Bool := match o with
  | some x => decide (x < n)
  | none => true

/-- A command names a core and a port that exist, and an instruction's fields fit its form. -/
def Instr.wellFormed (i : Instr) : Bool := below i.core 20 && below i.port 8 && i.fieldsOk

end Sys2Proof
end

