-- ==== Sys2Proof/Decode.lean ====
section
/-!
DEFINITION. Sys2Proof/Decode.lean: the words of Marrow instructions (15 R439-R464): the instruction that a program
word spells and the word of an instruction. The opcode table gives the rows of the block no bits, so no table word
spells a command.
-/
namespace Sys2Proof
open Machine

/-- The opcode table's rows carry no bits. DESIGN CHOICE: log entry 5. -/
def decodeTableWord (_nbits _w : Nat) : Option Instr := none

/-- The n-bit field of x from bit lo up. -/
def fld (x lo n : Nat) : Nat := x / 2 ^ lo % 2 ^ n

/-- A field as a bit vector. -/
def bits (x lo n : Nat) : BitVec n := BitVec.ofNat n (fld x lo n)

/-- A one-bit field. -/
def bit (x i : Nat) : Bool := fld x i 1 == 1

/-! ### Decoding by opcode -/

/-- KCALL services (14 R429). -/
def decodeKcall (n : Nat) (m : MemSt) (k : Nat) : Instr := match k with
  | 0 => .kEnd n | 1 => .kYield n | 2 => .kWait n | 3 => .kSleep n | 4 => .kSignal n | 5 => .kQget n m
  | 6 => .kQput n | 7 => .kQcount n | 8 => .kPost n | 9 => .kBlock n | k => .kUndefined n (BitVec.ofNat 8 k)

/-- Opcode 0x00 by SUB (R442). -/
def decodeS (n : Nat) (m : MemSt) (x : Nat) : Option Instr := match fld x 22 4 with
  | 0 => if fld x 8 14 = 0 then some (decodeKcall n m (fld x 0 8)) else none
  | 1 => if fld x 2 20 ≠ 0 then none else match fld x 0 2 with
    | 1 => some (.fenceR n) | 2 => some (.fenceW n) | 3 => some (.fenceRw n) | _ => none
  | 2 => if fld x 0 22 = 0 then some (.fenceI n) else none
  | 3 => some (.rep n (bits x 15 7) (bits x 0 15))
  | 4 => if fld x 0 10 = 0 then some (.repReg n (bits x 15 7) (bits x 10 5)) else none
  | 5 => if fld x 0 17 = 0 then some (.mfs n (bits x 17 5)) else none
  | 6 => if fld x 0 17 = 0 then some (.mts n (bits x 17 5)) else none
  | 7 => if fld x 0 17 = 0 then some (.stclr n (bits x 17 5)) else none
  | 8 => if fld x 0 17 = 0 then some (.mfbx n (bits x 17 5)) else none
  | 9 => if fld x 0 17 = 0 then some (.mtbx n (bits x 17 5)) else none
  | _ => none

/-- Opcode 0x01 by FN (R444). -/
def decodeR (n x : Nat) : Option Instr :=
  let d := bits x 21 5
  let a := bits x 16 5
  let b := bits x 11 5
  if fld x 6 5 ≠ 0 then none else match fld x 0 6 with
  | 0x00 => some (.add n d a b) | 0x01 => some (.sub n d a b) | 0x02 => some (.and n d a b) | 0x03 => some (.or n d a b)
  | 0x04 => some (.xor n d a b) | 0x05 => some (.shl n d a b) | 0x06 => some (.shr n d a b) | 0x07 => some (.sar n d a b)
  | 0x08 => some (.shli n d a b) | 0x09 => some (.shri n d a b) | 0x0A => some (.sari n d a b)
  | 0x0B => some (.mul n d a b) | 0x0C => some (.mulh n d a b) | 0x0D => some (.mulhu n d a b)
  | 0x0E => some (.mulq n d a b) | 0x0F => some (.adds n d a b) | 0x10 => some (.subs n d a b)
  | 0x11 => some (.min n d a b) | 0x12 => some (.max n d a b)
  | 0x13 => if fld x 11 5 = 0 then some (.clz n d a) else none
  | _ => none

/-- Opcodes 0x02-0x07 (R445). -/
def decodeI (n op x : Nat) : Option Instr :=
  let d := bits x 21 5
  let a := bits x 16 5
  let i := bits x 0 16
  match op with
  | 2 => some (.addi n d a i) | 3 => some (.subi n d a i) | 4 => some (.andi n d a i) | 5 => some (.ori n d a i)
  | 6 => some (.xori n d a i)
  | _ => if fld x 16 5 = 0 then some (.movhi n d i) else none

/-- Fields of a format-M word. -/
def memFields (x : Nat) : MemOp := ⟨bits x 21 5, bits x 18 3, bits x 16 2, bit x 15, bits x 0 12⟩

/-- Opcodes 0x18-0x1B (R450). -/
def decodeM (n op x : Nat) (m0 m1 : MemSt) : Option Instr :=
  let o := memFields x
  match op, fld x 12 3 with
  | 0x18, 0 => some (.ldb n o m0) | 0x18, 1 => some (.ldbu n o m0) | 0x18, 2 => some (.ldh n o m0)
  | 0x18, 3 => some (.ldhu n o m0) | 0x18, 4 => some (.ldw n o m0) | 0x18, 5 => some (.ldd n o m0)
  | 0x19, 0 => some (.stb n o m0) | 0x19, 2 => some (.sth n o m0) | 0x19, 4 => some (.stw n o m0)
  | 0x19, 5 => some (.std n o m0) | 0x1A, 0 => some (.vld n o m0 m1) | 0x1B, 0 => some (.vst n o m0 m1)
  | _, _ => none

/-- Opcode 0x1C by KIND (R453): mode 0 or 1. -/
def decodeA (n x : Nat) (m : MemSt) : Option Instr :=
  let o : AtomOp := ⟨bits x 21 5, bits x 16 5, bits x 13 3, bit x 11, bit x 10⟩
  if fld x 0 7 ≠ 0 ∨ fld x 12 1 ≠ 0 then none else match fld x 7 3 with
  | 0 => some (.atomicAdd n o m) | 1 => some (.atomicAddD64 n o m) | 2 => some (.swap n o m) | 3 => some (.swapD64 n o m)
  | 4 => some (.cas n o m) | 5 => some (.casD64 n o m)
  | 6 => if fld x 21 5 = 0 ∧ fld x 10 1 = 0 then some (.cadd n (bits x 16 5) (bits x 13 3) (bit x 11)) else none
  | _ => none

/-- Opcode 0x28: the VMAC family (R458). -/
def decodeMac (n x : Nat) : Option Instr :=
  let o : MacOp := ⟨bits x 18 4, bits x 14 4, bits x 12 2, bits x 7 3, bit x 2, bit x 3, bit x 4⟩
  if fld x 22 4 ≠ 0 ∨ fld x 5 2 ≠ 0 ∨ fld x 10 2 ≠ 0 then none else match fld x 0 2 with
  | 0 => some (.vmac n o) | 1 => some (.vmacs n o) | 2 => some (.vmsu n o) | _ => some (.vmsus n o)

/-- Opcode 0x29: the VWMAC family (R459). -/
def decodeWMac (n x : Nat) : Option Instr :=
  let o : WMacOp := ⟨bits x 18 4, bits x 14 4, bit x 13, bit x 2, bit x 3⟩
  if fld x 22 4 ≠ 0 ∨ fld x 7 5 ≠ 0 ∨ fld x 12 1 ≠ 0 ∨ fld x 4 3 ≠ 0 then none else match fld x 0 2 with
  | 0 => some (.vwmac n o) | 1 => some (.vwmacs n o) | 2 => some (.vwmsu n o) | _ => some (.vwmsus n o)

/-- Opcode 0x2A: VEXTR (R460). -/
def decodeExtr (n x : Nat) : Option Instr :=
  if fld x 14 8 ≠ 0 ∨ fld x 3 4 ≠ 0 then none
  else some (.vextr n ⟨bits x 22 4, bits x 12 2, bits x 7 5, bit x 0, bit x 1, bit x 2⟩)

/-- Opcode 0x2B: VALU (R457). -/
def decodeValu (n x : Nat) : Option Instr :=
  let d := bits x 22 4
  let a := bits x 18 4
  let b := bits x 14 4
  let k := bits x 7 4
  let two (i : Instr) : Option Instr := if fld x 7 5 = 0 then some i else none
  let shift (i : Instr) : Option Instr := if fld x 14 4 = 0 ∧ fld x 11 1 = 0 then some i else none
  let one (i : Instr) : Option Instr := if fld x 14 4 = 0 ∧ fld x 7 5 = 0 then some i else none
  if fld x 12 2 ≠ 0 then none else match fld x 0 7 with
  | 0x00 => two (.vadd n d a b) | 0x01 => two (.vadds n d a b) | 0x02 => two (.vsub n d a b)
  | 0x03 => two (.vsubs n d a b) | 0x04 => two (.vmulq n d a b) | 0x05 => two (.vand n d a b)
  | 0x06 => two (.vor n d a b) | 0x07 => two (.vxor n d a b)
  | 0x08 => shift (.vshl n d a k) | 0x09 => shift (.vshls n d a k) | 0x0A => shift (.vsar n d a k)
  | 0x0B => shift (.vsrr n d a k)
  | 0x0C => two (.vmin n d a b) | 0x0D => two (.vmax n d a b)
  | 0x0E => one (.vabs n d a) | 0x0F => one (.vneg n d a) | 0x10 => one (.vmov n d a)
  | _ => none

/-- Opcode 0x2C: VXFER (R462). -/
def decodeXfer (n x : Nat) : Option Instr :=
  let g := bits x 21 5
  let d := bits x 17 4
  let a := bits x 13 4
  let l := bits x 10 3
  let e := bits x 10 2
  let noG := fld x 21 5 = 0
  let noD := fld x 17 4 = 0
  let noA := fld x 13 4 = 0
  let noL := fld x 10 3 = 0
  let noL2 := fld x 12 1 = 0
  if fld x 4 6 ≠ 0 then none else match fld x 0 4 with
  | 0 => if noA then some (.vins n d g l) else none
  | 1 => if noD then some (.vext n g a l) else none
  | 2 => if noA ∧ noL then some (.vbc n d g) else none
  | 3 => if noG then some (.vrot n d a l) else none
  | 4 => if noA ∧ noL2 then some (.vinsw n d g e) else none
  | 5 => if noD ∧ noL2 then some (.vextw n g a e) else none
  | 6 => if noG then some (.vspl n d a l) else none
  | 7 => if noD ∧ noL then some (.vsum n g a) else none
  | _ => none

/-- Opcode 0x2D: BEXP and BNORM (R463). -/
def decodeN (n x : Nat) (ms : List MemSt) : Option Instr :=
  if fld x 25 1 = 0 then (if fld x 0 21 = 0 then some (.bexp n (bits x 21 4)) else none)
  else if fld x 0 10 = 0 then some (.bnorm n (bits x 22 3) (bits x 18 4) (bits x 10 8) ms) else none

/-- Opcode 0x2E: ACC (R461). -/
def decodeAcc (n x : Nat) : Option Instr :=
  if fld x 22 4 ≠ 0 ∨ fld x 14 4 ≠ 0 then none else match fld x 0 7 with
  | 0 => if fld x 18 4 = 0 ∧ fld x 7 5 = 0 then some (.aclr n (bits x 12 2)) else none
  | 1 => some (.acld n (bits x 12 2) (bits x 18 4) (bits x 7 5))
  | _ => none

/-- The instruction of a word by its opcode (R464); none where a field breaks R441 without naming a form. -/
def decodeOp (n x : Nat) (ms : List MemSt) : Option Instr :=
  let m0 := nth .ok ms 0
  let m1 := nth .ok ms 1
  match fld x 26 6 with
  | 0x00 => decodeS n m0 x
  | 0x01 => decodeR n x
  | 0x02 => decodeI n 2 x | 0x03 => decodeI n 3 x | 0x04 => decodeI n 4 x
  | 0x05 => decodeI n 5 x | 0x06 => decodeI n 6 x | 0x07 => decodeI n 7 x
  | 0x10 => if fld x 13 9 = 0 then some (.br n (bits x 22 4) (bits x 0 13)) else none
  | 0x11 => if fld x 13 13 = 0 then some (.jmp n (bits x 0 13)) else none
  | 0x12 => if fld x 13 8 = 0 then some (.jal n (bits x 21 5) (bits x 0 13)) else none
  | 0x13 => if fld x 21 5 = 0 ∧ fld x 0 16 = 0 then some (.jr n (bits x 16 5)) else none
  | 0x18 => decodeM n 0x18 x m0 m1 | 0x19 => decodeM n 0x19 x m0 m1
  | 0x1A => decodeM n 0x1A x m0 m1 | 0x1B => decodeM n 0x1B x m0 m1
  | 0x1C => decodeA n x m0
  | 0x1D => if fld x 13 1 ≠ 0 then none
    else if bit x 20 then some (.stp n (bits x 21 5) (bit x 19) (bits x 14 5) (bits x 0 13))
    else some (.ldp n (bits x 21 5) (bit x 19) (bits x 14 5) (bits x 0 13))
  | 0x20 => if fld x 0 15 = 0 then some (.amov n (bits x 21 5) (bits x 19 2) (bits x 16 3) (bit x 15)) else none
  | 0x21 => if fld x 16 6 = 0 then some (.amod n (bits x 23 3) (bit x 22) (bits x 0 16)) else none
  | 0x28 => decodeMac n x
  | 0x29 => decodeWMac n x
  | 0x2A => decodeExtr n x
  | 0x2B => decodeValu n x
  | 0x2C => decodeXfer n x
  | 0x2D => decodeN n x ms
  | 0x2E => decodeAcc n x
  | _ => none

/-- The instruction that core n issues for a program word, where its Gourd accesses meet the statuses `ms` in turn (none
listed: no error): an undefined word (R441) is an undefined instruction. DESIGN CHOICE: log entry 5. -/
def decodeMarrow (n : Nat) (w : Word) (ms : List MemSt) : Instr := match decodeOp n w.toNat ms with
  | some i => if i.fieldsOk then i else .undefinedInstruction n
  | none => .undefinedInstruction n

/-! ### Encoding -/

/-- 1 for a set bit. -/
def one (b : Bool) : Nat := if b then 1 else 0

/-- Format S: SUB and the rest. -/
def encS (sub rest : Nat) : Nat := sub * 2 ^ 22 + rest
/-- Format R. -/
def encR (fn : Nat) (d a b : BitVec 5) : Nat := 2 ^ 26 + d.toNat * 2 ^ 21 + a.toNat * 2 ^ 16 + b.toNat * 2 ^ 11 + fn
/-- Format I. -/
def encI (op : Nat) (d a : BitVec 5) (i : BitVec 16) : Nat := op * 2 ^ 26 + d.toNat * 2 ^ 21 + a.toNat * 2 ^ 16 + i.toNat
/-- Format M. -/
def encM (op sz : Nat) (o : MemOp) : Nat :=
  op * 2 ^ 26 + o.r.toNat * 2 ^ 21 + o.a.toNat * 2 ^ 18 + o.mode.toNat * 2 ^ 16 + one o.direct * 2 ^ 15 + sz * 2 ^ 12 +
  o.imm.toNat
/-- Format A. -/
def encA (kind : Nat) (o : AtomOp) : Nat :=
  0x1C * 2 ^ 26 + o.d.toNat * 2 ^ 21 + o.s.toNat * 2 ^ 16 + o.a.toNat * 2 ^ 13 + one o.upd * 2 ^ 11 +
  one o.direct * 2 ^ 10 + kind * 2 ^ 7
/-- Format V. -/
def encV (op : Nat) (vd va vb : BitVec 4) (ac : BitVec 2) (k fn : Nat) : Nat :=
  op * 2 ^ 26 + vd.toNat * 2 ^ 22 + va.toNat * 2 ^ 18 + vb.toNat * 2 ^ 14 + ac.toNat * 2 ^ 12 + k * 2 ^ 7 + fn
/-- The VMAC family: `fn` holds S and N. -/
def encMac (fn : Nat) (o : MacOp) : Nat :=
  encV 0x28 0 o.va o.vb o.ac o.k.toNat (fn + one o.i * 4 + one o.z * 8 + one o.l * 16)
/-- The VWMAC family. -/
def encWMac (fn : Nat) (o : WMacOp) : Nat :=
  encV 0x29 0 o.va o.vb (if o.hiPair then 2 else 0) 0 (fn + one o.z * 4 + one o.h * 8)
/-- Format X. -/
def encX (fn : Nat) (g : BitVec 5) (vd va : BitVec 4) (l : Nat) : Nat :=
  0x2C * 2 ^ 26 + g.toNat * 2 ^ 21 + vd.toNat * 2 ^ 17 + va.toNat * 2 ^ 13 + l * 2 ^ 10 + fn

/-- The number of an instruction's word; none for a command that is no instruction, and for an undefined word, which
has many. -/
def encodeNat : Instr → Option Nat
  | .kEnd _ => some 0 | .kYield _ => some 1 | .kWait _ => some 2 | .kSleep _ => some 3 | .kSignal _ => some 4
  | .kQget _ _ => some 5 | .kQput _ => some 6 | .kQcount _ => some 7 | .kPost _ => some 8 | .kBlock _ => some 9
  | .kUndefined _ k => some k.toNat
  | .fenceR _ => some (encS 1 1) | .fenceW _ => some (encS 1 2) | .fenceRw _ => some (encS 1 3)
  | .fenceI _ => some (encS 2 0)
  | .rep _ len1 count => some (encS 3 (len1.toNat * 2 ^ 15 + count.toNat))
  | .repReg _ len1 g => some (encS 4 (len1.toNat * 2 ^ 15 + g.toNat * 2 ^ 10))
  | .mfs _ d => some (encS 5 (d.toNat * 2 ^ 17)) | .mts _ s => some (encS 6 (s.toNat * 2 ^ 17))
  | .stclr _ s => some (encS 7 (s.toNat * 2 ^ 17)) | .mfbx _ d => some (encS 8 (d.toNat * 2 ^ 17))
  | .mtbx _ s => some (encS 9 (s.toNat * 2 ^ 17))
  | .add _ d a b => some (encR 0x00 d a b) | .sub _ d a b => some (encR 0x01 d a b)
  | .and _ d a b => some (encR 0x02 d a b) | .or _ d a b => some (encR 0x03 d a b)
  | .xor _ d a b => some (encR 0x04 d a b) | .shl _ d a b => some (encR 0x05 d a b)
  | .shr _ d a b => some (encR 0x06 d a b) | .sar _ d a b => some (encR 0x07 d a b)
  | .shli _ d a c => some (encR 0x08 d a c) | .shri _ d a c => some (encR 0x09 d a c)
  | .sari _ d a c => some (encR 0x0A d a c) | .mul _ d a b => some (encR 0x0B d a b)
  | .mulh _ d a b => some (encR 0x0C d a b) | .mulhu _ d a b => some (encR 0x0D d a b)
  | .mulq _ d a b => some (encR 0x0E d a b) | .adds _ d a b => some (encR 0x0F d a b)
  | .subs _ d a b => some (encR 0x10 d a b) | .min _ d a b => some (encR 0x11 d a b)
  | .max _ d a b => some (encR 0x12 d a b) | .clz _ d a => some (encR 0x13 d a 0)
  | .addi _ d a i => some (encI 2 d a i) | .subi _ d a i => some (encI 3 d a i) | .andi _ d a i => some (encI 4 d a i)
  | .ori _ d a i => some (encI 5 d a i) | .xori _ d a i => some (encI 6 d a i) | .movhi _ d i => some (encI 7 d 0 i)
  | .br _ c off => some (0x10 * 2 ^ 26 + c.toNat * 2 ^ 22 + off.toNat)
  | .jmp _ t => some (0x11 * 2 ^ 26 + t.toNat)
  | .jal _ d t => some (0x12 * 2 ^ 26 + d.toNat * 2 ^ 21 + t.toNat)
  | .jr _ a => some (0x13 * 2 ^ 26 + a.toNat * 2 ^ 16)
  | .ldb _ o _ => some (encM 0x18 0 o) | .ldbu _ o _ => some (encM 0x18 1 o) | .ldh _ o _ => some (encM 0x18 2 o)
  | .ldhu _ o _ => some (encM 0x18 3 o) | .ldw _ o _ => some (encM 0x18 4 o) | .ldd _ o _ => some (encM 0x18 5 o)
  | .stb _ o _ => some (encM 0x19 0 o) | .sth _ o _ => some (encM 0x19 2 o) | .stw _ o _ => some (encM 0x19 4 o)
  | .std _ o _ => some (encM 0x19 5 o) | .vld _ o _ _ => some (encM 0x1A 0 o) | .vst _ o _ _ => some (encM 0x1B 0 o)
  | .atomicAdd _ o _ => some (encA 0 o) | .atomicAddD64 _ o _ => some (encA 1 o) | .swap _ o _ => some (encA 2 o)
  | .swapD64 _ o _ => some (encA 3 o) | .cas _ o _ => some (encA 4 o) | .casD64 _ o _ => some (encA 5 o)
  | .cadd _ rs a upd => some (encA 6 ⟨0, rs, a, upd, false⟩)
  | .ldp _ g bank rs w => some (0x1D * 2 ^ 26 + g.toNat * 2 ^ 21 + one bank * 2 ^ 19 + rs.toNat * 2 ^ 14 + w.toNat)
  | .stp _ g bank rs w =>
    some (0x1D * 2 ^ 26 + g.toNat * 2 ^ 21 + 2 ^ 20 + one bank * 2 ^ 19 + rs.toNat * 2 ^ 14 + w.toNat)
  | .amov _ g kind i dir =>
    some (0x20 * 2 ^ 26 + g.toNat * 2 ^ 21 + kind.toNat * 2 ^ 19 + i.toNat * 2 ^ 16 + one dir * 2 ^ 15)
  | .amod _ a src imm => some (0x21 * 2 ^ 26 + a.toNat * 2 ^ 23 + one src * 2 ^ 22 + imm.toNat)
  | .vmac _ o => some (encMac 0 o) | .vmacs _ o => some (encMac 1 o) | .vmsu _ o => some (encMac 2 o)
  | .vmsus _ o => some (encMac 3 o)
  | .vwmac _ o => some (encWMac 0 o) | .vwmacs _ o => some (encWMac 1 o) | .vwmsu _ o => some (encWMac 2 o)
  | .vwmsus _ o => some (encWMac 3 o)
  | .vextr _ o => some (encV 0x2A o.vd 0 0 o.ac o.k.toNat (one o.w + one o.h * 2 + one o.c * 4))
  | .vadd _ d a b => some (encV 0x2B d a b 0 0 0x00) | .vadds _ d a b => some (encV 0x2B d a b 0 0 0x01)
  | .vsub _ d a b => some (encV 0x2B d a b 0 0 0x02) | .vsubs _ d a b => some (encV 0x2B d a b 0 0 0x03)
  | .vmulq _ d a b => some (encV 0x2B d a b 0 0 0x04) | .vand _ d a b => some (encV 0x2B d a b 0 0 0x05)
  | .vor _ d a b => some (encV 0x2B d a b 0 0 0x06) | .vxor _ d a b => some (encV 0x2B d a b 0 0 0x07)
  | .vshl _ d a k => some (encV 0x2B d a 0 0 k.toNat 0x08) | .vshls _ d a k => some (encV 0x2B d a 0 0 k.toNat 0x09)
  | .vsar _ d a k => some (encV 0x2B d a 0 0 k.toNat 0x0A) | .vsrr _ d a k => some (encV 0x2B d a 0 0 k.toNat 0x0B)
  | .vmin _ d a b => some (encV 0x2B d a b 0 0 0x0C) | .vmax _ d a b => some (encV 0x2B d a b 0 0 0x0D)
  | .vabs _ d a => some (encV 0x2B d a 0 0 0 0x0E) | .vneg _ d a => some (encV 0x2B d a 0 0 0 0x0F)
  | .vmov _ d a => some (encV 0x2B d a 0 0 0 0x10)
  | .vins _ d g l => some (encX 0 g d 0 l.toNat) | .vext _ g a l => some (encX 1 g 0 a l.toNat)
  | .vbc _ d g => some (encX 2 g d 0 0) | .vrot _ d a l => some (encX 3 0 d a l.toNat)
  | .vinsw _ d g e => some (encX 4 g d 0 e.toNat) | .vextw _ g a e => some (encX 5 g 0 a e.toNat)
  | .vspl _ d a l => some (encX 6 0 d a l.toNat) | .vsum _ g a => some (encX 7 g 0 a 0)
  | .bexp _ a => some (0x2D * 2 ^ 26 + a.toNat * 2 ^ 21)
  | .bnorm _ a g n1 _ => some (0x2D * 2 ^ 26 + 2 ^ 25 + a.toNat * 2 ^ 22 + g.toNat * 2 ^ 18 + n1.toNat * 2 ^ 10)
  | .aclr _ ac => some (encV 0x2E 0 0 0 ac 0 0)
  | .acld _ ac va k => some (encV 0x2E 0 va 0 ac k.toNat 1)
  | _ => none

/-- The word of an instruction. DESIGN CHOICE: log entry 5. -/
def encodeMarrow (i : Instr) : Option Word := (encodeNat i).map (BitVec.ofNat 32)

/-- The memory statuses that an instruction's accesses meet, as `decodeMarrow` takes them. -/
def memOf : Instr → List MemSt
  | .kQget _ m | .ldb _ _ m | .ldbu _ _ m | .ldh _ _ m | .ldhu _ _ m | .ldw _ _ m | .ldd _ _ m | .stb _ _ m | .sth _ _ m
  | .stw _ _ m | .std _ _ m | .atomicAdd _ _ m | .atomicAddD64 _ _ m | .swap _ _ m | .swapD64 _ _ m | .cas _ _ m
  | .casD64 _ _ m => [m]
  | .bnorm _ _ _ _ ms => ms
  | .vld _ _ m0 m1 | .vst _ _ m0 m1 => [m0, m1]
  | _ => []

end Sys2Proof
end

