-- ==== Sys2Proof/Machine/Flags.lean ====
section
/-!
DEFINITION. Sys2Proof/Machine/Flags.lean: every computation of ST (14 R402, R405-R408; 15 R442, R444, R457-R460)
and of BX (14 R403, R409).
-/
namespace Sys2Proof.Machine

/-- ST with bit i set to b. -/
def stBit (st : Word) (i : Nat) (b : Bool) : Word :=
  if b then st ||| (1#32 <<< i) else st &&& ~~~(1#32 <<< i)

/-- N and Z from a 32-bit result. -/
def flagsNZ (st : Word) (x : Word) : Word := stBit (stBit st 0 x.msb) 1 (x == 0)

/-- N and Z, and C. -/
def flagsNZC (st : Word) (x : Word) (c : Bool) : Word := stBit (flagsNZ st x) 2 c

/-- N, Z, C and V. -/
def flagsNZCV (st : Word) (x : Word) (c v : Bool) : Word := stBit (flagsNZC st x c) 3 v

/-- N, Z and V (the saturating forms). -/
def flagsNZV (st : Word) (x : Word) (v : Bool) : Word := stBit (flagsNZ st x) 3 v

/-- Whether an exact integer leaves the signed 32-bit range. -/
def over32 (x : Int) : Bool := x < -(2 ^ 31) || x ≥ 2 ^ 31

/-- Result and ST of ADD (15 R444): C the carry out, V the signed overflow. -/
def addFlags (st a b : Word) : Word × Word :=
  (a + b, flagsNZCV st (a + b) (2 ^ 32 ≤ a.toNat + b.toNat) (over32 (a.toInt + b.toInt)))

/-- Result and ST of SUB: C is 1 when a ≥ b unsigned. -/
def subFlags (st a b : Word) : Word × Word :=
  (a - b, flagsNZCV st (a - b) (b.toNat ≤ a.toNat) (over32 (a.toInt - b.toInt)))

/-- Result and ST of a form that writes N and Z. -/
def nzFlags (st x : Word) : Word × Word := (x, flagsNZ st x)

/-- Shift left by c: C takes the last bit shifted out, and keeps its value for a count of 0. -/
def shlFlags (st a : Word) (c : Nat) : Word × Word :=
  let x := a <<< c
  (x, if c = 0 then flagsNZ st x else flagsNZC st x (a.getLsbD (32 - c)))

/-- Logical shift right. -/
def shrFlags (st a : Word) (c : Nat) : Word × Word :=
  let x := a >>> c
  (x, if c = 0 then flagsNZ st x else flagsNZC st x (a.getLsbD (c - 1)))

/-- Arithmetic shift right. -/
def sarFlags (st a : Word) (c : Nat) : Word × Word :=
  let x := a.sshiftRight c
  (x, if c = 0 then flagsNZ st x else flagsNZC st x (a.getLsbD (c - 1)))

/-- Saturating 32-bit result: V tells whether it was clamped. -/
def satFlags (st : Word) (x : Int) : Word × Word :=
  let y : Word := BitVec.ofInt 32 (sat x 32)
  (y, flagsNZV st y (over32 x))

/-- Leading zeros of a word. -/
def clz : Nat → Word → Nat
  | 0, _ => 0
  | n + 1, x => if x.msb then 0 else 1 + clz n (x <<< 1)

/-- CLZ (15 R444): Z from the count, N := 0. -/
def clzFlags (st a : Word) : Word × Word :=
  let x : Word := BitVec.ofNat 32 (clz 32 a)
  (x, stBit (stBit st 0 false) 1 (x == 0))

/-- Set OV of the lanes where f holds (sticky, ST [11:4]). -/
def stickyOV (st : Word) (f : Nat → Bool) : Word :=
  (rangeFrom 0 8).foldl (fun s l => if f l then stBit s (4 + l) true else s) st

/-- Set SAT of the lanes where f holds (sticky, ST [19:12]). -/
def stickySAT (st : Word) (f : Nat → Bool) : Word :=
  (rangeFrom 0 8).foldl (fun s l => if f l then stBit s (12 + l) true else s) st

/-- Whether an exact value leaves the w-bit signed range. -/
def overW (w : Nat) (x : Int) : Bool := x < -((2 ^ (w - 1) : Nat) : Int) || x ≥ ((2 ^ (w - 1) : Nat) : Int)

/-- Redundant sign bits of a 16-bit lane: 15 for 0 and −1 (14 R409). -/
def headroom (x : BitVec 16) : Nat :=
  let y := if x.msb then ~~~x else x
  (rangeFrom 0 15).foldl (fun h i => if y.getLsbD i then 14 - i else h) 15

/-- The least headroom among the lanes of a vector. -/
def vecHeadroom (v : BitVec 128) : Nat := (rangeFrom 0 8).foldl (fun h l => min h (headroom (lane v l))) 15

/-- HEAD of BX (14 R403). -/
def bxHead (bx : Word) : Nat := (bx.extractLsb' 0 4).toNat

/-- BX from HEAD and SCALE; the reserved fields read 0. -/
def bxOf (head : Nat) (scale : BitVec 8) : Word := (0#16 ++ scale ++ 0#4 ++ BitVec.ofNat 4 head)

/-- SCALE of BX. -/
def bxScale (bx : Word) : BitVec 8 := bx.extractLsb' 8 8

/-- MTS: ST[22:0] := v[22:0]; [31:23] read 0. -/
def stWrite (v : Word) : Word := v &&& 0x007FFFFF#32

/-- STCLR: clear the bits set in v. -/
def stClear (st v : Word) : Word := st &&& ~~~v &&& 0x007FFFFF#32

end Sys2Proof.Machine
end

