-- ==== Sys2Proof/Machine/Gourd.lean ====
section
/-!
DEFINITION. Sys2Proof/Machine/Gourd.lean: Gourd and the mix buses (03 R67-R82, 13 R366-R388): banks, errors and
poison, direct and transactional bytes, sealed writes at a boundary, commit-adds.
-/
namespace Sys2Proof.Machine

/-- Bank of a Gourd byte address (13 R366). -/
def gBank (a : Nat) : Nat := a / 2 ^ 19 % 64

/-- Quadrant of a Gourd byte address. -/
def gQuad (a : Nat) : Nat := gBank a / 16

/-- Whether the word holding address a is poisoned (13 R374). -/
def isPoisoned (d : Dev) (a : Nat) : Bool := d.gourd.poison.contains (a / 8)

/-- R373: a corrected read counts in CE_COUNT of the bank. -/
def gourdCe (d : Dev) (a : Nat) : Dev := bump d (0x6000 + gBank a) 0x03

/-- R374: an uncorrectable error met at address a. A word already poisoned writes no further record. -/
def gourdUe (d : Dev) (a : Nat) : Dev :=
  if isPoisoned d a then d
  else
    let d := { d with gourd := { d.gourd with poison := (a / 8) :: d.gourd.poison } }
    let d := bump d (0x6000 + gBank a) 0x04
    let d := oSet d (0x6000 + gBank a) 0x05 (a / 8 * 8)
    addFault d 0x03 (0x80 + gBank a) 0 0xFF 0 0 (a / 8 * 8)

/-- Errors that reads of Gourd meet, each an address and whether it is uncorrectable: those of one moment in ascending bank
order (05 R168). -/
def gourdErrs (d : Dev) (l : List (Nat × Bool)) : Dev :=
  (sortBy (fun a b => decide (gBank a.1 < gBank b.1)) l).foldl (fun d e => if e.2 then gourdUe d e.1 else gourdCe d e.1) d

/-- Words of a bank poisoned now (13 R397 POISONED). -/
def poisonedIn (d : Dev) (n : Nat) : Nat := (d.gourd.poison.filter (fun w => gBank (8 * w) = n)).length

/-- A word that holds one of the n bytes from address a upward is poisoned. -/
def poisonedWithin (d : Dev) (a n : Nat) : Bool := d.gourd.poison.any (fun w => decide (8 * w < a + n ∧ a < 8 * w + 8))

/-- The poison of the words that p names is cleared: they are written whole (13 R374). -/
def clearPoison (d : Dev) (p : Nat → Bool) : Dev :=
  { d with gourd := { d.gourd with poison := d.gourd.poison.filter (fun w => !p w) } }

/-- n bytes from address a upward as a read gives them: those of poisoned words are zero (13 R374). -/
def gourdBytes (d : Dev) (a n : Nat) : List Byte :=
  (rangeFrom a n).map (fun x => if isPoisoned d x then 0#8 else mget 0#8 d.gourd.mem x)

/-- Store bytes lying in one word, under the poison rule of R374: a write of all eight bytes clears the poison,
any other write to a poisoned word is not performed. -/
def gStoreWord (d : Dev) (a : Nat) (bs : List Byte) : Dev :=
  if isPoisoned d a then
    if a % 8 = 0 ∧ bs.length = 8 then
      { d with gourd := { d.gourd with mem := mwrite d.gourd.mem a bs, poison := d.gourd.poison.filter (· ≠ a / 8) } }
    else d
  else { d with gourd := { d.gourd with mem := mwrite d.gourd.mem a bs } }

/-- A direct write of a byte string by Root or an engine (13 R377: repeated on CONFLICT, so it lands), split at
word boundaries; n bounds the number of words. -/
def gStore : Nat → Dev → Nat → List Byte → Dev
  | 0, d, _, _ => d
  | _ + 1, d, _, [] => d
  | n + 1, d, a, bs =>
    let k := 8 - a % 8
    gStore n (gStoreWord d a (bs.take k)) (a + k) (bs.drop k)

/-- CONFLICTs that masters other than Marrow cores meet; they repeat the write (13 R376, R377). -/
def gourdConflicts (d : Dev) (l : List Nat) : Dev := l.foldl (fun d a => bump d (0x6000 + gBank a) 0x06) d

/-- A direct write of any byte string. -/
def gWrite (d : Dev) (a : Nat) (bs : List Byte) : Dev := gStore (bs.length / 8 + 2) d a bs

/-- n zero bytes from address a upward (13 R394). -/
def gZero (d : Dev) (a n : Nat) : Dev :=
  { d with gourd := { d.gourd with mem := d.gourd.mem.filter (fun c => c.1 < a ∨ a + n ≤ c.1)
                                   poison := d.gourd.poison.filter (fun w => 8 * w < a ∨ a + n ≤ 8 * w) } }

/-- Bytes seen by a transactional reader of window w (03 R69, R70). -/
def snapFor (d : Dev) (w : Nat) : AMap Byte := if d.media.block ≤ w then d.gourd.snap else d.gourd.snapPrev

/-! ### Sealed plain writes and adds (03 R75) -/

/-- Distinct words a byte map touches, in rising order. -/
def wordsOf : AMap Byte → List Nat
  | [] => []
  | (a, _) :: r => match wordsOf r with
    | w :: l => if w = a / 8 then w :: l else a / 8 :: w :: l
    | [] => [a / 8]

/-- Bytes of a map that lie in a word. -/
def bytesIn (m : AMap Byte) (w : Nat) : AMap Byte := m.filter (fun c => c.1 / 8 = w)

/-- Apply the bytes of one word. -/
def applyWord (d : Dev) (m : AMap Byte) (w : Nat) : Dev :=
  let bs := bytesIn m w
  if bs.length = 8 then gStoreWord d (8 * w) (bs.map (·.2))
  else if isPoisoned d (8 * w) then d
  else { d with gourd := { d.gourd with mem := bs.foldl (fun g c => mput 0#8 g c.1 c.2) d.gourd.mem } }

/-- Staged entries of a transaction that reach word w: an entry covers at most 16 bytes from its address. WRITE_CLASHES counts
each entry that loses a word (03 R75). DESIGN CHOICE: log entry 59. -/
def entriesAt (t : SealedWrite) (w : Nat) : Nat :=
  (t.slots.filter (fun a => a / 8 = w ∨ (a % 16 = 0 ∧ a / 8 + 1 = w ∧ mfind t.writes (8 * w) ≠ none ∧
    ¬ t.slots.contains (8 * w)))).length

/-- The plain writes of one transaction: a word already taken by a winner counts its losing entries. -/
def applyPlain (t : SealedWrite) : List Nat → Dev × List Nat → Dev × List Nat
  | [], x => x
  | w :: r, (d, taken) =>
    if taken.contains w then applyPlain t r (bump d 0x0110 0x05 (entriesAt t w), taken)
    else applyPlain t r (applyWord d t.writes w, w :: taken)

/-- One sealed atomic add, modulo its width. -/
def applyAdd (d : Dev) (x : Nat × Nat × Nat) : Dev :=
  if isPoisoned d x.1 then d
  else
    let old := fromLE (mread d.gourd.mem x.1 x.2.1)
    { d with gourd := { d.gourd with mem := mwrite d.gourd.mem x.1 (toLE x.2.1 (old + x.2.2)) } }

/-- All sealed transactions of one window, lower thread numbers winning (R75), then every add. -/
def applyWindow (d : Dev) (l : List SealedWrite) : Dev :=
  let s := sortBy (fun a b => a.thread < b.thread) l
  let d := (s.foldl (fun x t => applyPlain t (wordsOf t.writes) x) (d, [])).1
  s.foldl (fun d t => t.adds.foldl applyAdd d) d

/-- At a boundary: the sealed writes land, window by window, and the boundary's view is kept for readers. Writes of two windows that
land at one boundary are no clash: the later window's stand. DESIGN CHOICE: log entry 67. -/
def landSealed (d : Dev) : Dev :=
  let ws := (sortBy (fun a b => decide (a < b)) (d.gourd.sealed.map (·.window))).eraseDups
  let d := ws.foldl (fun d w => applyWindow d (d.gourd.sealed.filter (·.window = w))) d
  { d with gourd := { d.gourd with sealed := [], snapPrev := d.gourd.snap, snap := d.gourd.mem } }

/-! ### Mix buses (03 R78-R82) -/

/-- Key of a bus word. -/
def busKey (ch par i : Nat) : Nat := (2 * ch + par) * 64 + i

/-- A bus word of 03 R78, as an integer. -/
def busGet (d : Dev) (ch par i : Nat) : Int := mget 0 d.gourd.bus (busKey ch par i)

/-- Add a vector element by element modulo 2^64 (R80). -/
def busAddVec : AMap Int → Nat → List Int → AMap Int
  | m, _, [] => m
  | m, k, x :: r => busAddVec (mput 0 m k (wrapS 64 (mget 0 m k + x))) (k + 1) r

/-- Gourd address of bus word i of a buffer (13 R368). -/
def busAddr (b ch par i : Nat) : Nat := 0xD20000 + 8 * (b * (2 * ch + par) + i)

/-- First address past the mix-bus region in use: 64 KiB, or 128 KiB with the mix extension at B = 64. -/
def busTop (b : Nat) : Nat := 0xD20000 + 8 * b * 256

/-- The bus word (channel, parity, i) that holds a Gourd address at block length b. -/
def busOf (b a : Nat) : Nat × Nat × Nat :=
  let w := (a - 0xD20000) / 8
  (w / b / 2, w / b % 2, w % b)

/-- The bytes of the bus words from address a upward, as they stand (R82). -/
def busBytes (d : Dev) (a n : Nat) : List Byte :=
  let b := blockLen d
  (rangeFrom a n).map (fun x =>
    let (ch, par, i) := busOf b x
    nth 0#8 (toLE 8 (wrapU 64 (busGet d ch par i))) (x % 8))

/-- The mix-bus region in use. -/
def inBus (d : Dev) (a n : Nat) : Bool := 0x00D20000 ≤ a && a + n ≤ busTop (blockLen d)

/-- Poisoned words of the buffers of one parity. -/
def busPoison (d : Dev) (par : Nat) (w : Nat) : Bool := inBus d (8 * w) 8 && (busOf (blockLen d) (8 * w)).2.1 == par

/-- A bus word as the output mixer reads it: zero for a poisoned one (22 R652). -/
def busRead (d : Dev) (ch par i : Nat) : Int :=
  if isPoisoned d (busAddr (blockLen d) ch par i) then 0 else busGet d ch par i

/-- The elements of a vector that a commit-add performs: none on a poisoned word (13 R374). -/
def busTerms (d : Dev) (ch par : Nat) (v : List Int) : List Int :=
  (List.zip (rangeFrom 0 v.length) v).map (fun x => if isPoisoned d (busAddr (blockLen d) ch par x.1) then 0 else x.2)

/-- R79: the buffers of one parity become zero, every word written whole. -/
def clearBus (d : Dev) (par : Nat) : Dev :=
  let d := clearPoison d (busPoison d par)
  { d with gourd := { d.gourd with bus := d.gourd.bus.filter (fun c => c.1 / 64 % 2 ≠ par) } }

/-! ### Where masters may reach (13 R386, R388) -/

/-- The user tables of R388: user curves and wavetable pool. -/
def inUserTables (a n : Nat) : Bool := 0x00808000 ≤ a && a + n ≤ 0x00C00000

/-- HEAP_USER_TOP of a version whose pool has been allocated (13 R392). -/
def poolTop (v : Version) : Nat := 0x01A18000 - vGet v 0x6820 0x01 * vGet v 0x6820 0x03 * 1024

/-- HEAP_USER_TOP in force: 0x01A1_8000 before the first COMMIT that allocates the pool. -/
def userTop (d : Dev) : Nat := if d.ver.active.num = 0 then 0x01A18000 else poolTop d.ver.active

/-- The user area. -/
def inUserArea (d : Dev) (a n : Nat) : Bool := 0x00D40000 ≤ a && a + n ≤ userTop d

/-! ### Records and stores of fixed place (13 R369), by spot: slot n as n, lane n as 1,152 + n -/

/-- First byte of the checkpoint record of a spot. -/
def checkpointAt (n : Nat) : Nat := if n < 1152 then 0x00C00000 + 1024 * n else 0x01A18000 + 1024 * (n - 1152)

/-- First byte of the word that holds word j of the line of filter i at a spot (07 R214). -/
def combWordAt (n i j : Nat) : Nat := 0x01A60000 + 4096 * n + 8 * (Config.combWord i j % 512)

/-- First byte of the word of the head store that holds word w of the head of region r (12 R345). -/
def headWordAt (r w : Nat) : Nat := 0x00400000 + 8 * (Config.headWord r w % 524288)

/-- First byte of the word of the stream pool that holds word w of a stream's buffer (12 R348, 13 R392). -/
def streamWordAt (d : Dev) (serial x w : Nat) : Nat :=
  userTop d + 8 * (Config.streamWord serial x w % ((0x01A18000 - userTop d) / 8))

/-- A sealed record lands at the next boundary (03 R83, R84). -/
def noteRecord (d : Dev) (r w : Nat) : Dev :=
  { d with gourd := { d.gourd with records := d.gourd.records ++ [(r, w)] } }

end Sys2Proof.Machine
end

