-- ==== Sys2Proof/Machine/Stalk.lean ====
section
/-!
DEFINITION. Sys2Proof/Machine/Stalk.lean: threads, counters, ready order, delay lists, flows and queues
(16 R465-R499), the dispatch of a core with its prefetch buffer (14 R412-R417), and the entry of items into part
event queues (11 R319-R322, 02 R39).
-/
namespace Sys2Proof.Machine

/-! ### Records of State -/

/-- Thread t. -/
def thr (d : Dev) (t : Nat) : Thread := mget Thread.zero d.stalk.threads t

/-- Change thread t. -/
def modThr (d : Dev) (t : Nat) (f : Thread → Thread) : Dev :=
  { d with stalk := { d.stalk with threads := mmod Thread.zero d.stalk.threads t f } }

/-- Core n. -/
def coreOf (d : Dev) (n : Nat) : Core := mget Core.zero d.cores n

/-- Change core n. -/
def modCore (d : Dev) (n : Nat) (f : Core → Core) : Dev := { d with cores := mmod Core.zero d.cores n f }

/-- A thread-window field of the active version (16 R502). -/
def tf (d : Dev) (sub t : Nat) : Nat := rs d 0x5801 sub t

/-- A thread is enabled in the active version. -/
def tOn (d : Dev) (t : Nat) : Bool := tf d 0x01 t = 1

/-- A thread is an audio thread in the active version. -/
def tAudio (d : Dev) (t : Nat) : Bool := tf d 0x02 t = 1

/-- UNIT_STATE of a unit code (22 R672). -/
def unitSt (d : Dev) (code : Nat) : Nat := mget 0 d.units code

/-- Core n is in service. -/
def coreIn (d : Dev) (n : Nat) : Bool := n < 20 && unitSt d (0x40 + n) = 0

/-- Marrow cores in service. -/
def coresIn (d : Dev) : Nat := ((rangeFrom 0 20).filter (coreIn d)).length

/-- A unit that a takeover may use: a spare, or a spare under its periodic self-test (22 R666). DEDUCED: log entry 34. -/
def usable (d : Dev) (u : Nat) : Bool := unitSt d u = 1 || (unitSt d u = 3 && d.spares.tests.contains (u, true))

/-- The version under which window w computes (03 R68). -/
def versionAt (d : Dev) (w : Nat) : Version :=
  ((d.ver.before.filter (fun x => decide (w < x.1))).getLast?.map (·.2)).getD d.ver.active

/-- The device as a window sees it: with the version of the window as the active one. -/
def inWindow (d : Dev) (w : Nat) : Dev := { d with ver := { d.ver with active := versionAt d w } }

/-- The device as the dispatch on core n sees it: an audio thread's under the version of its window. -/
def asWindow (d : Dev) (n : Nat) : Dev :=
  match (coreOf d n).txn with
  | some x => inWindow d x.window
  | none => d

/-- CORE_FREEZE of core n (04 R146). -/
def coreFrozen (d : Dev) (n : Nat) : Bool := oGet d 0x1020 (n + 1) != 0

/-- Queue q. -/
def queueOf (d : Dev) (q : Nat) : Queue := mget Queue.zero d.stalk.queues q

/-- Change queue q. -/
def modQueue (d : Dev) (q : Nat) (f : Queue → Queue) : Dev :=
  { d with stalk := { d.stalk with queues := mmod Queue.zero d.stalk.queues q f } }

/-- Flow f. -/
def flowOf (d : Dev) (f : Nat) : Flow := mget ⟨none, false, []⟩ d.stalk.flows f

/-- Change flow f. -/
def modFlow (d : Dev) (f : Nat) (g : Flow → Flow) : Dev :=
  { d with stalk := { d.stalk with flows := mmod ⟨none, false, []⟩ d.stalk.flows f g } }

/-! ### Queues (16 R487-R496) -/

/-- Kind of a queue number in a version (R487). -/
def kindIn (v : Version) (q : Nat) : Nat :=
  if q < 256 then 0 else if q < 512 then 1 else if q < 512 + vGet v 0x5F00 0x01 then 2
  else if q < 2048 then 3 else 4

/-- Depth in force of a queue in a version (R489). -/
def depthIn (v : Version) (q : Nat) : Nat :=
  let x := vGet v 0x5A01 0x02 q
  if x ≠ 0 then x
  else match kindIn v q with
    | 0 => vGet v 0x5F00 0x03
    | 1 => 64
    | 2 => vGet v 0x5F00 0x05
    | 3 => vGet v 0x5F00 0x06
    | _ => vGet v 0x5F00 0x07

/-- Kind in the active version. -/
def qKind (d : Dev) (q : Nat) : Nat := kindIn d.ver.active q

/-- Depth in force. -/
def qDepth (d : Dev) (q : Nat) : Nat := depthIn d.ver.active q

/-- Items in a queue. -/
def qCount (d : Dev) (q : Nat) : Nat := (queueOf d q).items.length

/-- Free places of a queue. -/
def qRoom (d : Dev) (q : Nat) : Nat := qDepth d q - qCount d q

/-- The items of a queue, each with the number of its message. -/
def numbered (x : Queue) : List (BitVec 128 × Nat) :=
  List.zip x.items (x.seqs ++ List.replicate (x.items.length - x.seqs.length) 0)

/-- Keep the items that satisfy a test, each with its number. -/
def keepItems (f : BitVec 128 → Bool) (x : Queue) : Queue :=
  { x with
    items := x.items.filter f
    seqs := ((numbered x).filter (fun y => f y.1)).map (·.2) }

/-- No item is left. -/
def emptyItems (x : Queue) : Queue := { x with items := [], seqs := [] }

/-- Put one item at the tail. -/
def qPush (d : Dev) (q : Nat) (v : BitVec 128) : Dev := modQueue d q (fun x => { x with items := x.items ++ [v] })

/-- A Marrow thread or Tuber DMA puts an item into queue q (17 R527). -/
def qFill (d : Dev) (q : Nat) (v : BitVec 128) : Dev :=
  let d := qPush d q v
  if d.stalk.filled.contains q then d else { d with stalk := { d.stalk with filled := q :: d.stalk.filled } }

/-- Count one wait for room (R493). -/
def fullWait (d : Dev) (q : Nat) : Dev := bump d 0x5A01 0x07 1 q

/-- Items at the head of queue q that a transaction whose seal has not landed has read (03 R76, 16 R496). -/
def heldItems (d : Dev) (q : Nat) : Nat :=
  let n := d.cores.foldl (fun n c =>
    let n := c.2.ended.foldl (fun n t => max n (mget 0 t.reads q)) n
    match c.2.txn with
    | some t => max n (mget 0 t.reads q)
    | none => n) 0
  d.alloc.podTxns.foldl (fun n x => max n (mget 0 x.reads q)) n

/-- Remove the head item, unless a transaction whose seal has not landed has read it: that one stays at the head
(03 R76). DESIGN CHOICE: log entry 38. -/
def dropHead (d : Dev) (q : Nat) : Dev :=
  if 0 < heldItems d q then d
  else modQueue d q (fun x => { x with items := x.items.drop 1, doomed := x.doomed - 1 })

/-- The n items at the head leave; LAST becomes the last of them (R491). -/
def takeOut (d : Dev) (q n : Nat) : Dev :=
  modQueue d q (fun x => { x with
    items := x.items.drop n, doomed := x.doomed - n, last := (x.items.take n).getLast?.getD x.last })

/-- The items of queue q that an engine may take: it waits while a transaction whose seal has not landed has read the head
(03 R76). DESIGN CHOICE: log entry 38. -/
def engineItems (d : Dev) (q : Nat) : List (BitVec 128) := if 0 < heldItems d q then [] else (queueOf d q).items

/-- A direct read (R491): the head item, removed, or LAST with UNDERRUN on an empty queue. -/
def qTake (d : Dev) (q : Nat) : BitVec 128 × Bool × Dev :=
  match (queueOf d q).items with
  | [] => ((queueOf d q).last, true, bump d 0x5A01 0x06 1 q)
  | v :: _ => (v, false, modQueue (dropHead d q) q (fun x => { x with last := v }))

/-- Read counts of a transaction after n items left the head of queue q. -/
def fewer (q n : Nat) (m : AMap Nat) : AMap Nat := mput 0 m q (mget 0 m q - n)

/-- n items leave the head of queue q: every transaction that has read them keeps only what is still there. -/
def forgetReads (d : Dev) (q n : Nat) : Dev :=
  let txn (t : Txn) : Txn := { t with reads := fewer q n t.reads }
  { d with
    cores := d.cores.map (fun c => (c.1, { c.2 with txn := c.2.txn.map txn, ended := c.2.ended.map txn }))
    alloc := { d.alloc with podTxns := d.alloc.podTxns.map (fun x => { x with reads := fewer q n x.reads }) } }

/-- Retire the n items at the head of queue q that a transaction has read and that no other seal has retired
(03 R76, 16 R491): LAST becomes the last item retired. DEDUCED: log entry 38. -/
def qRetire (d : Dev) (q n : Nat) : Dev :=
  forgetReads (takeOut d q n) q n

/-- FLUSH (R496): every item but those held by an unsealed transaction; LAST is unchanged. DEDUCED: log entry 38. -/
def qFlush (d : Dev) (q : Nat) : Dev :=
  let h := heldItems d q
  modQueue d q (fun x => { x with items := x.items.take h, seqs := x.seqs.take h, doomed := min h x.items.length })

/-- At a boundary: what a FLUSH left for a transaction that no longer holds it is removed (R496).
DEDUCED: log entry 38. -/
def sweepQueues (d : Dev) : Dev :=
  ((d.stalk.queues.filter (fun c => c.2.doomed ≠ 0)).map (·.1)).foldl (fun d q =>
    let h := heldItems d q
    modQueue d q (fun x =>
      if h < x.doomed then { x with items := x.items.take h ++ x.items.drop x.doomed, doomed := h } else x)) d

/-- Root, an engine or a host puts an item if there is room. -/
def qPutIf (d : Dev) (q : Nat) (v : BitVec 128) : Option Dev := if 0 < qRoom d q then some (qPush d q v) else none

/-- Put a list of items at the tail. -/
def qPushAll (d : Dev) (q : Nat) (l : List (BitVec 128)) : Dev := l.foldl (fun d v => qPush d q v) d

/-! ### Event items (11 R319-R322) -/

/-- The 16 bytes of an event item (R320). -/
def evPack (six cls flags src u0 u1 : Nat) : BitVec 128 :=
  BitVec.ofNat 128 (six % 2 ^ 40 + 2 ^ 40 * (cls * 16 + flags) + 2 ^ 48 * src + 2 ^ 64 * u0 + 2 ^ 96 * u1)

/-- SIX of an item (R321): the value near SIX_NOW congruent to SIX_LO. -/
def evSix (d : Dev) (v : BitVec 128) : Nat :=
  let lo : Nat := v.toNat % 2 ^ 40
  let base : Int := (sixNow d : Int) - 2 ^ 38
  (base + ((lo : Int) - base) % ((2 ^ 40 : Nat) : Int)).toNat

/-- CLASS of an item. -/
def evClass (v : BitVec 128) : Nat := v.toNat / 2 ^ 44 % 16

/-- SRC of an item. -/
def evSrc (v : BitVec 128) : Nat := v.toNat / 2 ^ 48 % 2 ^ 16

/-- UMP words of an item. -/
def evU0 (v : BitVec 128) : Nat := v.toNat / 2 ^ 64 % 2 ^ 32
def evU1 (v : BitVec 128) : Nat := v.toNat / 2 ^ 96

/-- The key of R319 as one number. -/
def evKey (d : Dev) (v : BitVec 128) : Nat := (evSix d v * 16 + evClass v) * 65536 + evSrc v

/-- Put an event item, of the message with number n, in key order behind items of equal key (R319). -/
def evInsert (d : Dev) (q n : Nat) (v : BitVec 128) : Dev :=
  modQueue d q (fun x =>
    let l := insertBy (fun a b => decide (evKey d a.1 < evKey d b.1)) (v, n) (numbered x)
    { x with items := l.map (·.1), seqs := l.map (·.2) })

/-- The number of the next message that enters: above that of every message in a part event queue. -/
def nextSeq (d : Dev) : Nat :=
  (d.stalk.queues.filter (fun c => c.1 < 256)).foldl (fun n c => c.2.seqs.foldl (fun n s => max n (s + 1)) n) 0

/-- First sample of the earliest computable block (02 R39). -/
def earliest (d : Dev) : Nat := (d.media.block + 3) * blockLen d

/-- UNTIMED_DELAY with its floor of 3·B (02 R40). -/
def untimedDelay (d : Dev) : Nat := max (rs d 0x2010 0x08) (3 * blockLen d)

/-- One item enters its part's queue: late items are restamped and marked (02 R39, 11 R322). `n` is the number of the
frame's first message. -/
def evEnter (n : Nat) (untimed : Bool) (d : Dev) (i : EvItem) : Dev :=
  let late := i.six < earliest d
  let six := if late then earliest d else i.six
  evInsert d i.part (n + i.packet) (evPack six i.cls (b2n late + 2 * b2n untimed) i.src i.u0 i.u1)

/-- Distinct packets of an item list that are late. -/
def latePackets (d : Dev) (l : List EvItem) : Nat :=
  ((l.filter (fun i => i.six < earliest d)).map (·.packet)).eraseDups.length

/-- All items of a frame or message enter together, in order; each late packet counts once and voids (R39, R89). -/
def evEnterAll (d : Dev) (untimed : Bool) (l : List EvItem) : Dev :=
  let n := latePackets d l
  let d' := l.foldl (evEnter (nextSeq d) untimed) d
  if n = 0 then d' else voidAt (bump d' 0x0110 0x01 n) 1 (d.media.block + 3)

/-- Every part event queue concerned has room for its items (R318). -/
def evRoom (d : Dev) (l : List EvItem) : Bool :=
  l.all (fun i => (l.filter (fun j => j.part = i.part)).length ≤ qRoom d i.part)

/-! ### Ready order (16 R477-R480) -/

/-- LEVEL of a thread. -/
def lvl (d : Dev) (t : Nat) : Nat := oGet d 0x5801 0x05 t

/-- Append a ready thread to the list of its level (R477). -/
def enterList (d : Dev) (t : Nat) : Dev :=
  if tf d 0x06 t = 1 then
    { d with stalk := { d.stalk with privileged := mmod [] d.stalk.privileged (lvl d t) (· ++ [t]) } }
  else
    { d with stalk := { d.stalk with ordinary := mmod [] d.stalk.ordinary (16 * tf d 0x03 t + lvl d t) (· ++ [t]) } }

/-- Remove a thread from every ready list. -/
def leaveLists (d : Dev) (t : Nat) : Dev :=
  let out (m : AMap (List Nat)) : AMap (List Nat) :=
    (m.map (fun c => (c.1, c.2.filter (· ≠ t)))).filter (fun c => c.2 ≠ [])
  { d with stalk := { d.stalk with
      ordinary := out d.stalk.ordinary, privileged := out d.stalk.privileged, woken := d.stalk.woken.filter (· ≠ t) } }

/-- A thread becomes ready and enters its list at the next scheduler step; a suspended one records that its cause
occurred (R498). -/
def makeReady (d : Dev) (t : Nat) : Dev :=
  if (thr d t).st = .suspended then modThr d t (fun x => { x with woke := true, waitOn := none })
  else
    let d := modThr d t (fun x => { x with st := .ready, waitOn := none })
    { d with stalk := { d.stalk with woken := insertBy (fun a b => decide (a < b)) t (d.stalk.woken.filter (· ≠ t)) } }

/-- Threads of State that satisfy a test, in ascending number. -/
def threadsWhere (d : Dev) (f : Nat → Thread → Bool) : List Nat :=
  (d.stalk.threads.filter (fun c => f c.1 c.2)).map (·.1)

/-- IN_CH entries of a thread other than 0xFF (R473), under the version of the oldest release it holds (03 R68). -/
def inChannels (d : Dev) (t : Nat) : List Nat :=
  let d := match (thr d t).releases with
    | r :: _ => inWindow d r.1
    | [] => d
  ((rangeFrom 0x10 4).map (fun s => tf d s t)).filter (· ≠ 0xFF)

/-- OUT_CH entries of a thread other than 0xFF (R475). -/
def outChannels (d : Dev) (t : Nat) : List Nat :=
  ((rangeFrom 0x14 8).map (fun s => tf d s t)).filter (· ≠ 0xFF)

/-! ### Dependence counters (16 R469-R473) -/

/-- Value of counter c. -/
def cnt (d : Dev) (c : Nat) : Nat := mget 0 d.stalk.counters c

/-- Write the value of counter c, nothing else. -/
def setCntRaw (d : Dev) (c v : Nat) : Dev :=
  { d with stalk := { d.stalk with counters := mput 0 d.stalk.counters c v } }

/-- A release of an input channel decrements GATE of the audio threads gated on it (R473 step 3). -/
def gateDown (d : Dev) (t : Nat) : Dev :=
  let g := (thr d t).gate - 1
  let d := modThr d t (fun x => { x with gate := g })
  if g = 0 then makeReady d t else d

/-- Audio threads waiting at a gate that counts channel c. -/
def gatedOn (d : Dev) (c : Nat) : List Nat :=
  threadsWhere d (fun t x => (x.st = .waiting || (x.st = .suspended && x.was = .waiting && !x.woke)) &&
    0 < x.gate && (inChannels d t).contains c)

/-- Threads waiting on counter c. -/
def waitersOf (d : Dev) (c : Nat) : List Nat := threadsWhere d (fun _ x => x.waitOn = some c)

/-- A release of counter c (R470). -/
def releaseCnt (d : Dev) (c : Nat) : Dev :=
  let ws := waitersOf d c
  let gs := gatedOn d c
  let d := bump d 0x5800 0x14 1 c
  let d := if rs d 0x5800 0x12 c = 1 then setCntRaw d c (rs d 0x5800 0x11 c) else d
  let d := ws.foldl makeReady d
  gs.foldl gateDown d

/-- SIGNAL, a DONE_CNT signal or a landed commit-add (R470). -/
def signalCnt (d : Dev) (c : Nat) : Dev :=
  if cnt d c = 0 then bump d 0x5800 0x15 1 c
  else
    let d := setCntRaw d c (cnt d c - 1)
    if cnt d c = 0 then releaseCnt d c else d

/-- A host write or a load (R470). -/
def loadCnt (d : Dev) (c v : Nat) : Dev :=
  let d := setCntRaw d c v
  if v = 0 then releaseCnt d c else d

/-! ### Dispatch (14 R412-R417, 16 R479) -/

/-- Program word at an address of a bank (0 A, 1 B). -/
def progWord (d : Dev) (n bank addr : Nat) : Word :=
  mget 0 (if bank = 0 then (coreOf d n).progA else (coreOf d n).progB) (addr % 8192)

/-- Refill the prefetch buffer: words pc to pc + 3 (14 R412). -/
def refill (d : Dev) (n t : Nat) : Dev :=
  let pc := (thr d t).regs.pc.toNat
  let b := (coreOf d n).bank
  modCore d n (fun c => { c with pbuf := (rangeFrom pc 4).map (progWord d n b) })

/-- An empty transaction of a dispatch. -/
def Txn.start (core window thread bank : Nat) : Txn := ⟨core, window, thread, bank, 0, [], [], [], [], [], [], [], none⟩

/-- Begin a dispatch of thread t on core n (14 R416, R417, 16 R474, R479). -/
def beginDispatch (d : Dev) (n t : Nat) : Dev :=
  let x := thr d t
  let audio := tAudio d t
  let (w, b) := match audio, x.releases with
    | true, r :: _ => r
    | _, _ => (0, rs d (0x5000 + 0x20 * n) 0x01)
  let switch := match x.bank with
    | some b' => b' != b
    | none => false
  let d := modThr d t (fun x => { x with
    st := .running, bank := some b
    releases := if audio then x.releases.drop 1 else x.releases
    regs := if switch then { x.regs with pc := BitVec.ofNat 13 (tf (if audio then inWindow d w else d) 0x04 t) } else x.regs })
  let d := if switch then bump d (0x5000 + 0x20 * n) 0x08 else d
  let d := modCore d n (fun c => { c with
    run := some t, bank := b, window := w, txn := if audio then some (Txn.start n w t b) else none })
  refill (bump d (0x5000 + 0x20 * n) 0x04) n t

/-- First thread of a list bound to core n. -/
def firstOn (d : Dev) (n : Nat) (l : List Nat) : Option Nat := l.find? (fun t => tf d 0x03 t = n)

/-- The thread that core n takes next (R479), from level `k - 1` downward. -/
def pickAt (d : Dev) (n : Nat) : Nat → Option Nat
  | 0 => none
  | k + 1 => match firstOn d n (mget [] d.stalk.privileged k) with
    | some t => some t
    | none => match mget [] d.stalk.ordinary (16 * n + k) with
      | t :: _ => some t
      | [] => pickAt d n k

/-- An idle core in service whose threads run takes its next thread, unless it hands over (22 R663). -/
def dispatchCore (d : Dev) (n : Nat) : Dev :=
  if (coreOf d n).run = none ∧ coreIn d n ∧ ¬ (coreOf d n).stopped ∧ ¬ d.spares.handing.contains (0x40 + n) then
    match pickAt d n 16 with
    | some t => beginDispatch (leaveLists d t) n t
    | none => d
  else d

/-- The threads made ready since the latest step enter their lists in ascending number (R478). -/
def enterWoken (d : Dev) : Dev :=
  d.stalk.woken.foldl enterList { d with stalk := { d.stalk with woken := [] } }

/-- A scheduler step (R478, R479). -/
def schedule (d : Dev) : Dev := (rangeFrom 0 20).foldl dispatchCore (enterWoken d)

/-! ### Prefetch and completion of an instruction -/

/-- The issue at PC fetches the word at PC + 4 (14 R412). -/
def issue (d : Dev) (n t : Nat) : Dev :=
  let pc := (thr d t).regs.pc.toNat
  let b := (coreOf d n).bank
  modCore d n (fun c => { c with pbuf := c.pbuf.drop 1 ++ [progWord d n b (pc + 4)] })

/-- Change the registers of thread t. -/
def modRegs (d : Dev) (t : Nat) (f : Regs → Regs) : Dev := modThr d t (fun x => { x with regs := f x.regs })

/-- An instruction that did not transfer control completes (15 R443). DESIGN CHOICE: log entry 6. -/
def complete (d : Dev) (n t : Nat) : Dev :=
  let s := loopStep (thr d t).regs
  let d := modRegs d t (fun _ => s.1)
  if s.2 then refill d n t else d

/-- An instruction that transferred control completes at target a. -/
def transfer (d : Dev) (n t : Nat) (a : BitVec 13) : Dev :=
  refill (modRegs d t (fun r => jumpTo r a)) n t

/-! ### Flows (16 R484-R486) -/

/-- The flow whose FLOW_Q is q in the active version. DEDUCED: log entry 39. -/
def flowFor (d : Dev) (q : Nat) : Option Nat := (rangeFrom 0 256).find? (fun f => rs d (0x5C00 + f) 0x01 = q)

/-- G1 and V0 and UNDR after a QGET returned v with `left` items. -/
def qgetRegs (v : BitVec 128) (undr : Bool) (left : Nat) (r : Regs) : Regs :=
  let r := gW (vW r 0 v) 1 (BitVec.ofNat 32 left)
  { r with st := stBit r.st 22 undr }

/-- A transactional read (R491, 14 R431): the next item of the transaction's view. -/
def txnRead (d : Dev) (x : Txn) (q : Nat) : BitVec 128 × Bool × Nat × Txn :=
  let k := mget 0 x.reads q
  let items := (queueOf d q).items
  match items.drop k with
  | [] => ((mfind x.lasts q).getD (queueOf d q).last, true, 0, x)
  | v :: r => (v, false, r.length, { x with reads := mput 0 x.reads q (k + 1), lasts := mins x.lasts q v })

/-- The read of a QGET by the thread that runs on core n, and its completion. -/
def qgetRead (d : Dev) (n t q : Nat) : Dev :=
  match (coreOf d n).txn with
  | some x =>
    let (v, u, left, x') := txnRead d x q
    let d := if u then bump d 0x5A01 0x06 1 q else d
    let d := modCore d n (fun c => { c with txn := some x' })
    complete (modRegs d t (qgetRegs v u left)) n t
  | none =>
    let (v, u, d) := qTake d q
    complete (modRegs d t (qgetRegs v u (qCount d q))) n t

/-- R425: a read that meets UE status sets ST.UE and counts. -/
def ueRead (d : Dev) (n t : Nat) : Dev :=
  let d := modRegs d t (fun r => { r with st := stBit r.st 20 true })
  let d := bump d (0x5000 + 0x20 * n) 0x06
  match (coreOf d n).txn with
  | some x => voidAt d 0 (x.window + 2)
  | none => d

/-- A QGET proceeds: the item or LAST; one that meets UE status gives zero to V0 and sets ST.UE (14 R425). -/
def qgetNow (d : Dev) (n t q : Nat) (m : MemSt) : Dev :=
  let d := qgetRead d n t q
  if m = .uncorrectable then ueRead (modRegs d t (fun r => vW r 0 0)) n t else d

/-- Thread t takes flow f. -/
def takeFlow (d : Dev) (f t : Nat) (some' : Bool) : Dev :=
  modThr (modFlow d f (fun x => { x with holder := some t, inService := some' })) t (fun x => { x with flow := some f })

/-- Whether a QGET of q by the thread on core n would return an item. -/
def qgetFinds (d : Dev) (n q : Nat) : Bool :=
  match (coreOf d n).txn with
  | some x => mget 0 x.reads q < qCount d q
  | none => 0 < qCount d q

/-- The flow passes to the first stalled taker, whose QGET completes (R485). -/
def grantFlow (d : Dev) (f : Nat) : Dev :=
  match (flowOf d f).stalled with
  | [] => d
  | t :: r =>
    let n := tf d 0x03 t
    let d := modFlow d f (fun x => { x with stalled := r })
    match (thr d t).stall with
    | some (.flow q m) =>
      let d := takeFlow d f t (qgetFinds d n q)
      let d := modThr d t (fun x => { x with st := .running, stall := none })
      qgetNow d n t q m
    | _ => d

/-- Release the flow a thread holds, if any. -/
def releaseFlow (d : Dev) (t : Nat) : Dev :=
  match (thr d t).flow with
  | none => d
  | some f =>
    let d := modThr d t (fun x => { x with flow := none })
    grantFlow (modFlow d f (fun x => { x with holder := none, inService := false })) f

/-! ### Thread states at the end of a dispatch -/

/-- Give the state s unless the thread is disabled in the active version, with no block of an earlier version left to
compute (R497), or its core has stopped. -/
def settle (d : Dev) (t : Nat) (s : TState) : Dev :=
  if !tOn d t && (thr d t).releases.isEmpty then modThr d t (fun x => { x with st := .disabled, waitOn := none })
  else if (coreOf d (tf d 0x03 t)).stopped || !coreIn d (tf d 0x03 t) then
    modThr d t (fun x => { x with st := .suspended, was := s })
  else if s = .ready then makeReady (modThr d t (fun x => { x with st := .idle })) t
  else modThr d t (fun x => { x with st := s })

/-- The core is idle and nothing fetches from its banks. -/
def coreIdle (d : Dev) (n : Nat) : Dev := modCore d n (fun c => { c with run := none, pbuf := [], txn := none })

/-- A kernel thread after END, or at its creation, waits on WAKE_CNT, or is idle or ready (16 R468). -/
def kernelRest (d : Dev) (t : Nat) (atCreation : Bool) : Dev :=
  let w := tf d 0x0C t
  if w = 0xFFFF then settle d t (if atCreation then .ready else .idle)
  else if cnt d w = 0 then settle d t .ready
  else settle (modThr d t (fun x => { x with waitOn := some w })) t .waiting

/-- GATE counted from the counters now, and READY or WAITING (16 R473). -/
def gateNow (d : Dev) (t : Nat) : Dev :=
  let g := ((inChannels d t).filter (fun c => cnt d c ≠ 0)).length
  let d := modThr d t (fun x => { x with gate := g })
  settle d t (if g = 0 then .ready else .waiting)

/-- An audio thread whose dispatch ended takes the oldest release it holds, or is IDLE (R473). -/
def audioRest (d : Dev) (t : Nat) : Dev :=
  if (thr d t).releases = [] then settle d t .idle else gateNow d t

/-! ### Windows (16 R473-R475) -/

/-- Threads that count as producers at an opening (R475). -/
def producing (d : Dev) (t : Nat) : Bool :=
  tOn d t && tAudio d t && coreIn d (tf d 0x03 t) && !coreFrozen d (tf d 0x03 t)

/-- Give window k's release to an audio thread: an idle one is gated now, another takes it when its dispatch
ends. -/
def giveRelease (k : Nat) (d : Dev) (t : Nat) : Dev :=
  let b := rs d (0x5000 + 0x20 * tf d 0x03 t) 0x01
  let idle := (thr d t).st = .idle
  let d := modThr d t (fun x => { x with releases := x.releases ++ [(k, b)] })
  if idle then gateNow d t else d

/-- Releases older than window k − 1 whose dispatch has not begun are dropped at boundary k (R474). -/
def dropReleases (k : Nat) (d : Dev) (t : Nat) : Dev :=
  let x := thr d t
  let old := x.releases.filter (fun r => r.1 + 2 ≤ k)
  if old = [] then d
  else
    let d := bump (modThr d t (fun x => { x with releases := x.releases.filter (fun r => ¬ r.1 + 2 ≤ k) })) 0x5800 0x22 old.length
    if x.st = .waiting ∨ x.st = .ready ∨ x.st = .suspended then
      audioRest (modThr (leaveLists d t) t (fun x => { x with st := .idle, woke := false, waitOn := none, gate := 0 })) t
    else d

/-- Counters in CNT_MODE 2 in the active version. -/
def reloadedCounters (d : Dev) : List Nat :=
  (d.ver.active.vals.filter (fun c => c.1 / 131072 = 0x580012 ∧ c.2 = 2)).map (·.1 % 131072)

/-- Declare the commit-adds due of window k and load the counters (R81, R473 step 1). -/
def loadCounters (d : Dev) (k : Nat) (podDecl : List Decl) : Dev :=
  let ts := threadsWhere d (fun t _ => producing d t)
  let td := ts.flatMap (fun t => (outChannels d t).map (fun c => ⟨k, false, t, c⟩))
  let all := podDecl ++ td
  let d := { d with gourd := { d.gourd with declared := d.gourd.declared ++ all } }
  let d := (rangeFrom 0 128).foldl (fun d c => loadCnt d c (all.filter (fun x => x.ch = c)).length) d
  (reloadedCounters d).foldl (fun d c => loadCnt d c (rs d 0x5800 0x11 c)) d

/-- The opening of window k for the audio threads (R473, R474). -/
def openWindow (d : Dev) (k : Nat) (podDecl : List Decl) : Dev :=
  let d := (threadsWhere d (fun _ x => x.releases ≠ [])).foldl (dropReleases k) d
  let d := loadCounters d k podDecl
  let d := (threadsWhere d (fun t _ => producing d t)).foldl (giveRelease k) d
  schedule d

/-! ### Landing of commit-adds (03 R80, R81) -/

/-- A commit-add of a producer lands: a counted one is added and decrements its counter, another is discarded.
A poisoned bus word takes nothing (13 R374). -/
def landAdd (d : Dev) (w : Nat) (pod : Bool) (name ch : Nat) (v : List Int) : Dev :=
  let decl : Decl := ⟨w, pod, name, ch⟩
  if d.gourd.declared.contains decl then
    let d := { d with gourd := { d.gourd with
      declared := d.gourd.declared.erase decl
      bus := busAddVec d.gourd.bus (busKey ch ((w + 2) % 2) 0) (busTerms d ch ((w + 2) % 2) v) } }
    signalCnt d ch
  else bump d 0x0110 0x06

/-- A declared channel without a commit-add is decremented once (16 R475). -/
def undeclare (w : Nat) (pod : Bool) (name : Nat) (d : Dev) : Dev :=
  let mine := d.gourd.declared.filter (fun x => x.window = w ∧ x.pod = pod ∧ x.name = name)
  let d := { d with gourd := { d.gourd with
    declared := d.gourd.declared.filter (fun x => ¬ (x.window = w ∧ x.pod = pod ∧ x.name = name)) } }
  mine.foldl (fun d x => signalCnt d x.ch) d

end Sys2Proof.Machine
end

