-- ==== Sys2Proof/Machine/Record.lean ====
section
/-!
DEFINITION. Sys2Proof/Machine/Record.lean: the Voice Program Record (09 R254-R256): its default bytes, the bytes of
a program in a version, the fields of each block, and what a latched copy holds.
-/
namespace Sys2Proof.Machine

/-- Default bytes 0 to 57 of an oscillator block; MODE is 1 on OSC A alone (06 R200). -/
def oscDefault : List Nat :=
  [0, 0, 0, 0, 0, 0, 0, 0, 1, 0xFF, 0xFF, 0xFF, 0x7F, 0, 0, 0, 0, 0, 0, 0, 0, 0x40, 0, 0, 0, 0, 0, 0, 0, 0, 0, 0,
   0, 0, 0, 0, 0, 0, 0, 0, 0, 0, 0, 1, 1, 0, 0, 0, 0, 0, 0, 0, 0, 0, 0, 0, 0x10, 2]

/-- Default bytes of a zone (06 R201). -/
def zoneDefault : List Nat := [0, 0x7F, 1, 0x7F, 0, 0, 0, 0, 0, 0, 0x80, 0xBB, 0, 0]

/-- Default bytes of an envelope block (08 R249): NSEG, SUS_SEG, LOOP_START and the first three segments. -/
def envDefault : List Nat :=
  [3, 1, 0xFF, 48, 0, 0, 0, 0xFF, 0xFF, 0xFF, 0x7F, 0, 0xC0, 0x12, 0, 0, 0, 0, 0, 0x60, 1, 0x80, 0x25, 0, 0, 0, 0, 0, 0, 1]

/-- The byte at offset o of the default record (R263). -/
def recDefault (o : Nat) : Byte :=
  BitVec.ofNat 8 <|
  if o < 0x20 then nth 0 [1, 0, 45] o
  else if o < 0x490 then
    let x := (o - 0x20) / 0x11C
    let y := (o - 0x20) % 0x11C
    if y < 58 then (if x = 0 ∧ y = 0 then 1 else nth 0 oscDefault y)
    else if y < 60 then 0
    else nth 0 zoneDefault ((y - 60) % 14)
  else if o < 0x4C0 then (if (o - 0x490) % 24 = 17 ∨ (o - 0x490) % 24 = 21 then 0x10 else 0)
  else if o < 0x4CC then nth 0 [0, 0, 0, 0, 0x10, 0xFF, 0xFF, 0xFF, 0x7F] (o - 0x4C0)
  else if o < 0x4D8 then nth 0 [0, 0, 0, 0x10] (o - 0x4CC)
  else if o < 0x6A0 then nth 0 envDefault ((o - 0x4D8) % 0x4C)
  else if o < 0x6F0 then (if (o - 0x6A0) % 0x14 = 3 then 5 else 0)
  else if o < 0x7D0 then 0
  else nth 0 [1, 0xFF, 0, 0, 0, 0x10] (o - 0x7D0)

/-- A byte of program p's record in a version. -/
def recByte (v : Version) (p o : Nat) : Byte := (mfind v.recs (2048 * p + o)).getD (recDefault o)

/-- Write a byte of program p's record in a version. -/
def recPut (v : Version) (p o : Nat) (b : Byte) : Version :=
  { v with recs := mset (recDefault o) v.recs (2048 * p + o) b }

/-- Write bytes from offset o upward. -/
def recPuts (v : Version) (p : Nat) : Nat → List Byte → Version
  | _, [] => v
  | o, b :: r => recPuts (recPut v p o b) p (o + 1) r

/-- The 2,048 bytes of a record. -/
def recBytes (v : Version) (p o n : Nat) : List Byte := (rangeFrom o n).map (recByte v p)

/-- The bytes of program p that differ from the default record, by offset. -/
def recDiff (v : Version) (p : Nat) : AMap Byte :=
  (v.recs.filter (fun c => c.1 / 2048 = p)).map (fun c => (c.1 % 2048, c.2))

/-- Programs of which a version holds a byte that differs from the default. -/
def recPrograms (v : Version) : List Nat := (v.recs.map (fun c => c.1 / 2048)).eraseDups

/-- COST of a program in a version (R256). -/
def costOf (v : Version) (p : Nat) : Nat := (recByte v p 2).toNat + 256 * (recByte v p 3).toNat

/-- What a Pod reads of a program: bytes of a poisoned word read as zero (13 R374, 22 R652). -/
def podRecord (d : Dev) (p : Nat) : AMap Byte :=
  let bad := d.gourd.poison.filter (fun w => w / 256 = p)
  bad.foldl (fun m w => (rangeFrom (8 * w % 2048) 8).foldl (fun m o => mset (recDefault o) m o 0) m)
    (recDiff d.ver.active p)

/-- A word of program p's record is poisoned. -/
def podRecordBad (d : Dev) (p : Nat) : Bool := d.gourd.poison.any (fun w => w / 256 = p)

/-! ### Fields of a record copy -/

/-- The byte at offset o of a record copy. -/
def rB (m : AMap Byte) (o : Nat) : Nat := ((mfind m o).getD (recDefault o)).toNat

/-- An unsigned field of n bytes. -/
def rU (m : AMap Byte) (o : Nat) : Nat → Nat
  | 0 => 0
  | n + 1 => rB m o + 256 * rU m (o + 1) n

/-- A signed 16-bit and a signed 32-bit field. -/
def rI16 (m : AMap Byte) (o : Nat) : Int := sgn 16 (rU m o 2)
def rI32 (m : AMap Byte) (o : Nat) : Int := sgn 32 (rU m o 4)

/-- First byte of the block of oscillator x, filter i, envelope e (0-5), voice LFO l (0-3), matrix slot j,
send s (0-3). -/
def oscAt (x : Nat) : Nat := 0x20 + 0x11C * x
def fltAt (i : Nat) : Nat := 0x490 + 24 * i
def envAt (e : Nat) : Nat := 0x4D8 + 0x4C * e
def lfoAt (l : Nat) : Nat := 0x6A0 + 0x14 * l
def slotAt (j : Nat) : Nat := 0x6F0 + 7 * j
def sendAt (s : Nat) : Nat := 0x7D0 + 6 * s

/-- First byte of zone z of oscillator x. -/
def zoneAt (x z : Nat) : Nat := oscAt x + 60 + 14 * z

/-- A matrix slot: SRC, DEST, AMOUNT, VIA (08 R251). -/
structure Slot where
  src : Nat
  dest : Nat
  amount : Int
  via : Nat
deriving DecidableEq, Repr

/-- Matrix slot j of a record copy. -/
def slotOf (m : AMap Byte) (j : Nat) : Slot :=
  ⟨rB m (slotAt j), rB m (slotAt j + 1), rI32 m (slotAt j + 2), rB m (slotAt j + 6)⟩

/-- The active slots of a record, in ascending order (08 R247). -/
def activeSlots (m : AMap Byte) : List Slot :=
  ((rangeFrom 0 32).map (slotOf m)).filter (fun s => s.src != 0 && s.dest != 0 && s.amount != 0)

end Sys2Proof.Machine
end

