-- ==== Sys2Proof/Machine/Tables.lean ====
section
/-!
DEFINITION. Sys2Proof/Machine/Tables.lean: the function tables EXP2 (06 R174), SINQ (06 R182), TANT (07 R210) and
TANHT (07 R211), computed in fixed point with 96 fraction bits and rounded to the nearest integer, and the functions
that interpolate them (06 R175, R182; 07 R211; 08 R233).
-/
namespace Sys2Proof.Machine

/-- 2^96, the unit of the fixed-point numbers below. -/
def fixOne : Nat := 79228162514264337593543950336

/-- Product of the factors of `l` that the bits of i select, from x. -/
def bitProduct : List Nat → Nat → Nat → Nat
  | [], _, x => x
  | c :: r, i, x => bitProduct r (i / 2) (if i % 2 = 1 then x * c / fixOne else x)

/-- 2^(2^b / 1024) for b = 0 to 9. -/
def exp2Factors : List Nat :=
  [79281810334857995344526032841, 79335494482037593178543608469, 79442971854562650309779985388,
   79658363602065864296602447411, 80090900639232773493759855183, 80963033366431698391403892407,
   82735892943544661968409507608, 86398923866664962375130072335, 94218694570555024373110687280,
   112045541949572279837463876455]

/-- EXP2[i] of R174, i = 0 to 1,024: 2^30 × 2^(i/1024) to the nearest integer. -/
def exp2Tab (i : Nat) : Nat :=
  if i = 1024 then 2 ^ 31 else (bitProduct exp2Factors i fixOne * 2 ^ 30 + fixOne / 2) / fixOne

/-- π. -/
def fixPi : Nat := 248902613312231085230521944622

/-- Terms of the sine and cosine series of the angle with square x2: (sum of sine, sum of cosine). -/
def sinCosTerms (x2 : Nat) : Nat → Nat → Nat → Nat → Int × Int
  | 0, _, _, _ => (0, 0)
  | k + 1, n, ts, tc =>
    let r := sinCosTerms x2 k (n + 1) (ts * x2 / fixOne / ((2 * n + 2) * (2 * n + 3)))
      (tc * x2 / fixOne / ((2 * n + 1) * (2 * n + 2)))
    ((ts : Int) - r.1, (tc : Int) - r.2)

/-- Sine and cosine of π·num/den, for an angle up to π/2. -/
def sinCos (num den : Nat) : Int × Int :=
  let x := fixPi * num / den
  sinCosTerms (x * x / fixOne) 16 0 x fixOne

/-- SINQ[i] of R182, i = 0 to 4,096. -/
def sinqTab (i : Nat) : Int :=
  min 0x7FFFFFFF (((sinCos i 8192).1 * (2 ^ 31 : Nat) + (fixOne / 2 : Nat)) / (fixOne : Nat))

/-- TANT[i] of R210, i = 0 to 4,096. -/
def tantTab (i : Nat) : Int :=
  let x := sinCos i 16384
  min 0x7FFFFFFF ((x.1 * (2 ^ 32 : Nat) + x.2) / (2 * x.2))

/-- e^(2^b / 512) for b = 0 to 12. -/
def expFactors : List Nat :=
  [79383056233333154183471289789, 79538252774825785662640898770, 79849556694351970604369019580,
   80475824529397551961227965417, 81743134362359761291799724972, 84337939986678049366066862562,
   89777269792365750867152372613, 101730974385782366080485013148, 130625156775754158392272157367,
   215364474464724850177511348353, 585421337433093623126455912475, 4325711103804138603675102215026,
   236175823845536333111564385276939]

/-- TANHT[i] of R211, i = 0 to 4,096. -/
def tanhTab (i : Nat) : Int :=
  let x := bitProduct expFactors i fixOne
  min 0x7FFFFFFF (((x - fixOne) * 2 ^ 32 + (x + fixOne)) / (2 * (x + fixOne)))

/-! ### Interpolation -/

/-- `exp2_parts(P)` of 06 R175: (m, oct). -/
def exp2Parts (p : Int) : Int × Int :=
  let oct := p / 78643200
  let r := p - oct * 78643200
  let u := (r * (2 ^ 32 : Nat) / 78643200).toNat
  let i := u / 2 ^ 22
  let f : Nat := u % 2 ^ 22
  let a : Int := exp2Tab i
  let b : Int := exp2Tab (i + 1)
  (a + rndConv ((b - a) * f) 22, oct)

/-- `scaled_inc(P, K, lim)` of 06 R175. -/
def scaledInc (p : Int) (k lim : Nat) : Nat :=
  let x := exp2Parts p
  (min (rndConv (x.1 * k) (46 - x.2).toNat) lim).toNat

/-- K of 06 R175 and R189: floor((f × 2^65 + fs) / (2 × fs)). -/
def kFor (f fs : Nat) : Nat := (f * 2 ^ 65 + fs) / (2 * fs)

/-- `sine(ph)` of 06 R182, ph taken modulo 2^48. -/
def sineQ (ph : Nat) : Int :=
  let q := ph / 2 ^ 46 % 4
  let p0 := ph % 2 ^ 46 / 2 ^ 14
  let pos := if q % 2 = 1 then 2 ^ 32 - p0 else p0
  let i := pos / 2 ^ 20
  let f : Nat := pos % 2 ^ 20
  let v := if i = 4096 then sinqTab 4096
           else sinqTab i + rndConv ((sinqTab (i + 1) - sinqTab i) * f) 20
  if 2 ≤ q then -v else v

/-- `tanh_t(a, n)` of 07 R211. -/
def tanhQ (a : Int) (n : Nat) : Int :=
  let m := a.natAbs
  let v := if 4 * 2 ^ n ≤ m then tanhTab 4096
           else
             let i := m / 2 ^ (n - 10)
             let f : Nat := m % 2 ^ (n - 10)
             tanhTab i + rndConv ((tanhTab (i + 1) - tanhTab i) * f) (n - 10)
  if a < 0 then -v else v

/-- The prewarped gain g of 07 R210 for u = fc / fs_e in Q0.32. -/
def tanGain (u : Nat) : Int :=
  let i := u / 2 ^ 19
  let f : Nat := u % 2 ^ 19
  tantTab i + rndConv ((tantTab (i + 1) - tantTab i) * f) 19

/-- `pw(P)` of 08 R233: 2^(P / 78,643,200) with 31 fraction bits. -/
def pw31 (p : Int) : Int :=
  let x := exp2Parts p
  if -1 ≤ x.2 then x.1 * (2 ^ (x.2 + 1).toNat : Nat) else rndConv x.1 (-x.2 - 1).toNat

end Sys2Proof.Machine
end

