-- ==== Sys2Proof/Machine/Modulation.lean ====
section
/-!
DEFINITION. Sys2Proof/Machine/Modulation.lean: the modulation stage of a voice (08 R228-R247): envelopes, voice
LFOs, part LFOs, sources, destinations and the matrix sums.
-/
namespace Sys2Proof.Machine

/-- The 32 shifts of `draw` (06 R195). -/
def drawBits : Nat → Nat → Nat
  | 0, s => s
  | n + 1, s => drawBits n (if s % 2 = 1 then (s / 2) ^^^ 0x80200003 else s / 2)

/-- One `draw`: the value and the new generator state. -/
def draw (s : Nat) : Int × Nat := let t := drawBits 32 s; (sgn 32 t, t)

/-- The seed of generator x of the note with serial number n (06 R196). -/
def seedOf (n x : Nat) : Nat :=
  let s := (n * 0x9E3779B9 + (x + 1) * 0x6A09E667) % 2 ^ 32
  if s = 0 then 1 else s

/-! ### Envelopes (R231-R236) -/

/-- Segment count, sustain point and loop start of an envelope of a latched record. -/
def envNseg (lat : AMap Byte) (e : Nat) : Nat := rB lat (envAt e)
def envSus (lat : AMap Byte) (e : Nat) : Nat := rB lat (envAt e + 1)
def envLoop (lat : AMap Byte) (e : Nat) : Nat := rB lat (envAt e + 2)

/-- TIME, LEVEL and CURVE of segment j. -/
def segTime (lat : AMap Byte) (e j : Nat) : Nat := rU lat (envAt e + 3 + 9 * j) 4
def segLevel (lat : AMap Byte) (e j : Nat) : Nat := rU lat (envAt e + 7 + 9 * j) 4
def segCurve (lat : AMap Byte) (e j : Nat) : Nat := rB lat (envAt e + 11 + 9 * j)

/-- An envelope at the note-on (R228 step 1, R235). -/
def Env.fresh : Env := ⟨0, 0, 0, 0, 0, 0, 0, 0, false, .run, true, false⟩

/-- Output e of an envelope (R232). -/
def envOut (x : Env) : Int := min (rndConv x.lev 16) (2 ^ 31 - 1)

/-- `complete` (R234): the segment to start next, or the state that is reached. -/
def envNext (lat : AMap Byte) (e : Nat) (x : Env) : Option Nat × EnvMode :=
  let sus := envSus lat e
  let lp := envLoop lat e
  if x.seg = sus ∧ x.released = false then (if lp ≠ 0xFF then (some lp, .run) else (none, .hold))
  else if x.seg = envNseg lat e - 1 then
    (if sus = 0xFF ∧ lp ≠ 0xFF then (some lp, .run) else (none, .done))
  else (some (x.seg + 1), .run)

/-- Length N of a segment (R233). -/
def segLen (time : Nat) (ts : Int) : Nat :=
  if time = 0 then 0 else (max 1 (min 16777215 (rndConv (time * ts) 28))).toNat

/-- `start_segment` (R233); segments with TIME 0 complete at once. The first argument bounds the segments that
pass within one sample (R253 shuts out a loop of TIME 0 alone). DEDUCED: log entry 41. -/
def envStart (lat : AMap Byte) (e : Nat) (ts : Int) : Nat → Env → Nat → Env
  | 0, x, _ => { x with st := .hold }
  | f + 1, x, j =>
    let b : Nat := segLevel lat e j * 2 ^ 16
    let dd : Int := (b : Int) - x.lev
    let n := segLen (segTime lat e j) ts
    let x := { x with seg := j, n := 0, a := x.lev, b := b, len := n, st := .run }
    if n = 0 then
      let x := { x with lev := b }
      match envNext lat e x with
      | (some j, _) => envStart lat e ts f x j
      | (none, m) => { x with st := m }
    else
      let q : Int := ((393216000 / n : Nat) : Int)
      if segCurve lat e j = 1 then { x with curve := b + dd / 31, c := 2 ^ 31 - pw31 (-q) }
      else if segCurve lat e j = 2 then { x with curve := x.a - dd / 31, c := pw31 q - 2 ^ 31 }
      else { x with curve := 0, c := 0 }

/-- A segment start with the bound used throughout. -/
def envBegin (lat : AMap Byte) (e : Nat) (ts : Int) (x : Env) (j : Nat) : Env := envStart lat e ts 64 x j

/-- Completion of the running segment. -/
def envFinish (lat : AMap Byte) (e : Nat) (ts : Int) (x : Env) : Env :=
  let x := { x with lev := x.b }
  match envNext lat e x with
  | (some j, _) => envBegin lat e ts x j
  | (none, m) => { x with st := m }

/-- Step 5 of R228: pending starts and releases (R235). -/
def envPending (lat : AMap Byte) (e : Nat) (ts : Int) (x : Env) : Env :=
  let sus := envSus lat e
  let start := x.pendStart
  let rel := x.pendRel
  let x := { x with pendStart := false, pendRel := false }
  if start then
    let x := { x with lev := 0, released := false }
    if rel then
      if sus ≠ 0xFF then envBegin lat e ts { x with released := true } (sus + 1)
      else { envBegin lat e ts x 0 with released := true }
    else envBegin lat e ts x 0
  else if rel then
    if sus = 0xFF then { x with released := true }
    else if x.st = .done then x
    else envBegin lat e ts { x with released := true } (sus + 1)
  else x

/-- Step 7 of R228 for an envelope (R234). -/
def envAdvance (lat : AMap Byte) (e : Nat) (ts : Int) (x : Env) : Env :=
  if x.st = .run then
    let n := x.n + 1
    let x := { x with n := n }
    if x.len ≤ n then envFinish lat e ts x
    else
      let lev : Int := x.lev
      let a : Int := x.a
      let b : Int := x.b
      let cv := segCurve lat e x.seg
      let l : Int :=
        if cv = 0 then a + (b - a) * n / x.len
        else if cv = 1 then lev + rndConv ((x.curve - lev) * x.c) 31
        else lev + rndConv ((lev - x.curve) * x.c) 31
      { x with lev := (min (max l (min a b)) (max a b)).toNat }
  else x

/-! ### LFOs (R237-R243) -/

/-- Phase increment per sample of a rate in Q16.16 Hz (R237). -/
def lfoInc (d : Dev) (rate : Nat) : Nat := (rate * 2 ^ 33 + engineRate d) / (2 * engineRate d)

/-- The shaped value v of R238; h is the held value of SHAPE 5. -/
def lfoShape (shape ph : Nat) (h : Int) : Int :=
  if shape = 0 then sineQ ph
  else if shape = 1 then
    let p := (ph + 2 ^ 46) % 2 ^ 48
    let t : Int := ((p / 2 ^ 15 : Nat) : Int)
    sat (if p < 2 ^ 47 then t - 2 ^ 31 else 3 * 2 ^ 31 - t) 32
  else if shape = 2 then ((ph / 2 ^ 16 : Nat) : Int) - 2 ^ 31
  else if shape = 3 then 2 ^ 31 - 1 - ((ph / 2 ^ 16 : Nat) : Int)
  else if shape = 4 then (if ph < 2 ^ 47 then 2 ^ 31 - 1 else -2 ^ 31)
  else h

/-- POLARITY (R240). -/
def polar (pol : Nat) (v : Int) : Int := if pol = 1 then (v + 2 ^ 31) / 2 else v

/-- Output of voice LFO l (R240) at age samples after the note-on. -/
def lfoOut (rec lat : AMap Byte) (l age : Nat) (x : Lfo) : Int :=
  let v := polar (rB rec (lfoAt l + 10)) (lfoShape (rB lat (lfoAt l)) x.ph x.held)
  let dl := rU lat (lfoAt l + 11) 4
  let fd := rU lat (lfoAt l + 15) 4
  let g : Int :=
    if age < dl then 0
    else if fd = 0 ∨ fd ≤ age - dl then 2 ^ 31
    else (((age - dl) * 2 ^ 31 / fd : Nat) : Int)
  rndConv (v * g) 31

/-- A voice LFO at the note-on sample s (R237, R239). -/
def Lfo.fresh (d : Dev) (rec lat : AMap Byte) (l s serial : Nat) : Lfo :=
  let sp := rU lat (lfoAt l + 6) 4 * 2 ^ 16
  let ph := if rB lat (lfoAt l + 5) = 0 then sp else (sp + s * lfoInc d (rU rec (lfoAt l + 1) 4)) % 2 ^ 48
  let h := draw (seedOf serial (4 + l))
  ⟨ph, h.2, h.1⟩

/-- Step 7 of R228 for a voice LFO. -/
def lfoAdvance (d : Dev) (lat : AMap Byte) (l rate : Nat) (x : Lfo) : Lfo :=
  let inc := lfoInc d rate
  if 2 ^ 48 ≤ x.ph + inc ∧ rB lat (lfoAt l) = 5 then
    let h := draw x.seed
    ⟨(x.ph + inc) % 2 ^ 48, h.2, h.1⟩
  else { x with ph := (x.ph + inc) % 2 ^ 48 }

/-- A part-LFO field f of LFO l (0-7) in a version (R252). -/
def plfo (v : Version) (p l f : Nat) : Nat := vGet v (0x3400 + p) (1 + 16 * l + f)

/-- Phase Φ of part LFO l at sample s (R241) from its reference. -/
def plfoPhase (d : Dev) (v : Version) (p l s : Nat) (ps : PartSt) : Nat :=
  let r := mget (0, 0) ps.phase l
  (r.1 + (s - r.2) * lfoInc d (plfo v p l 1)) % 2 ^ 64

/-- `phash` (R243). -/
def phash (cy part l : Nat) : Int :=
  let h := (cy * 0x9E3779B9 + part * 0x85EBCA6B + l * 0xC2B2AE35) % 2 ^ 32
  let h := (h ^^^ (h / 2 ^ 16)) * 0x7FEB352D % 2 ^ 32
  let h := (h ^^^ (h / 2 ^ 15)) * 0x846CA68B % 2 ^ 32
  sgn 32 (h ^^^ (h / 2 ^ 16))

/-- The tap of part LFO l at sample s (R241, R243). -/
def plfoTap (d : Dev) (p l s : Nat) (ps : PartSt) : Int :=
  let v := d.ver.active
  let ph := plfoPhase d v p l s ps
  polar (plfo v p l 4) (lfoShape (plfo v p l 0) (ph % 2 ^ 48) (phash (ph / 2 ^ 48) p (l + 1)))

/-- A restart of part LFO l at sample s (R242); the entry 16 + l keeps the sample of the latest restart, since
several note-ons at one sample make one restart. -/
def plfoRestart (d : Dev) (p s : Nat) (ps : PartSt) (l : Nat) : PartSt :=
  if mget (0, 0) ps.phase (16 + l) = (1, s) then ps
  else
    let ph := plfoPhase d d.ver.active p l s ps
    let ph' := (ph / 2 ^ 48 + 1) % 2 ^ 16 * 2 ^ 48 + plfo d.ver.active p l 2 * 2 ^ 16
    { ps with phase := mput (0, 0) (mput (0, 0) ps.phase l (ph', s)) (16 + l) (1, s) }

/-- The restarts a note-on at sample s makes (R242); `held` tells whether the part holds a note. -/
def plfoNoteOn (d : Dev) (p s : Nat) (held : Bool) (ps : PartSt) : PartSt :=
  (rangeFrom 0 8).foldl (fun ps l =>
    let sync := plfo d.ver.active p l 3
    if sync = 1 ∨ (sync = 2 ∧ held = false) then plfoRestart d p s ps l else ps) ps

/-! ### Sources and the matrix (R244-R247) -/

/-- Value of source `code` for a voice at sample s (R244), its record and its part's state. -/
def srcValue (d : Dev) (ps : PartSt) (rec : AMap Byte) (v : Voice) (s code : Nat) : Int :=
  if code = 1 then 2 ^ 31
  else if 2 ≤ code ∧ code ≤ 7 then envOut (nth Env.fresh v.envs (code - 2))
  else if 8 ≤ code ∧ code ≤ 11 then lfoOut rec v.lat (code - 8) (s - v.start) (nth ⟨0, 0, 0⟩ v.lfos (code - 8))
  else if 12 ≤ code ∧ code ≤ 19 then plfoTap d v.part (code - 12) s ps
  else if code = 20 then ((v.vel * 2 ^ 15 : Nat) : Int)
  else if code = 21 then (if v.rel = none then 0 else ((v.relVel * 2 ^ 15 : Nat) : Int))
  else if code = 22 then sat (((v.key : Int) - 60) * 2 ^ 25) 32
  else if code = 23 then (draw (seedOf v.serial 8)).1
  else if code = 24 then (if v.rel = none then 2 ^ 31 - 1 else 0)
  else if code = 25 then ((v.press / 2 : Nat) : Int)
  else if 26 ≤ code ∧ code ≤ 29 then ((nth 0 v.pnc (code - 26) / 2 : Nat) : Int)
  else if code = 30 then ((ps.press / 2 : Nat) : Int)
  else if code = 31 then (ps.bend : Int) - 2 ^ 31
  else if 128 ≤ code ∧ code ≤ 247 then ((mget 0 ps.cc (code - 128) / 2 : Nat) : Int)
  else 0

/-- One term of R246. -/
def slotTerm (val : Nat → Int) (x : Slot) : Int :=
  let v := if x.via = 0 then 2 ^ 31 else val x.via
  rndConv (rndConv (val x.src * v) 31 * x.amount) 31

/-- M of a destination over the active slots (R246). -/
def matrixSum (val : Nat → Int) (slots : List Slot) (dest : Nat) : Int :=
  slots.foldl (fun a x => if x.dest = dest then a + slotTerm val x else a) 0

/-- Destinations updated at every sample (R245). -/
def audioDest (c : Nat) : Bool :=
  c = 8 || (0x10 ≤ c && c < 0x50 && c % 16 ≤ 1) || c = 0x50 || c = 0x58 || c = 0x68

/-- The sums held at block rate, with those for note-on and segment-start destinations (R229, R246). -/
def heldSums (val : Nat → Int) (slots : List Slot) : AMap Int :=
  let ds := ((slots.map (·.dest)).filter (fun c => !audioDest c)).eraseDups
  ds.foldl (fun m c => mput 0 m c (matrixSum val slots c)) []

/-- TIME_SCALE of envelope e (0-5) from the held sums. DEDUCED: log entry 49. -/
def timeScale (held : AMap Int) (e : Nat) : Int := clampI 0x00100000 0x80000000 (2 ^ 28 + mget 0 held (0x78 + e))

/-- RATE_eff of voice LFO l from the held sums. -/
def lfoRate (rec : AMap Byte) (held : AMap Int) (l : Nat) : Nat :=
  (clampI 0 0x03E80000 ((rU rec (lfoAt l + 1) 4 : Nat) + mget 0 held (0x80 + l))).toNat

end Sys2Proof.Machine
end

