-- ==== Sys2Proof/Machine/Osc.lean ====
section
/-!
DEFINITION. Sys2Proof/Machine/Osc.lean: the oscillators of a voice and their mixer (06 R171-R198): pitch, virtual
analog, FM, wavetable, sample playback, noise.
-/
namespace Sys2Proof.Machine

/-- What a voice reads while it renders: the device at the boundary, its part's state, its record as the Pod reads
it, the active slots, and its spot (slot n as n, lane n as 1,152 + n). -/
structure RCtx where
  d : Dev
  ps : PartSt
  prog : AMap Byte
  slots : List Slot
  spot : Nat
deriving Repr

/-- Output of one oscillator: left and right (equal for a mono one), whether it is stereo, whether a frame it needed
was missing, and whether it met an uncorrectable error. -/
structure OscOut where
  l : Int
  r : Int
  stereo : Bool
  miss : Bool
  ue : Bool
deriving DecidableEq, Repr

/-- A mono output. -/
def OscOut.mono (x : Int) : OscOut := ⟨x, x, false, false, false⟩

/-- m_X of R179. -/
def OscOut.mix (o : OscOut) : Int := if o.stereo then rndConv (o.l + o.r) 1 else o.l

/-- Every oscillator field of the record copy, by its offset in the block (09 R255). -/
def oU (m : AMap Byte) (x off n : Nat) : Nat := rU m (oscAt x + off) n
def oI (m : AMap Byte) (x off : Nat) : Int := rI32 m (oscAt x + off)

/-- P_X of R173. -/
def oscPitch (rec : AMap Byte) (x : Nat) (pNote mPitch : Int) : Int :=
  let key := if oU rec x 8 1 = 1 then pNote else 0
  sat (key + 6553600 * rI16 rec (oscAt x + 2) + oI rec x 4 + mPitch) 32

/-- Phase increment of R175. -/
def oscInc (d : Dev) (p : Int) : Nat := scaledInc p (kFor 440 (engineRate d)) (2 ^ 47 - 1)

/-! ### Virtual-analog (R180, R181) -/

/-- The residual of a rising step. -/
def blep (ph inc : Nat) : Int :=
  if ph < inc then
    let t : Int := ((ph * 2 ^ 31 / inc : Nat) : Int)
    2 * t - rndConv (t * t) 31 - 2 ^ 31
  else if 2 ^ 48 ≤ ph + inc ∧ inc ≠ 0 then
    let t : Int := ((ph : Int) - 2 ^ 48) * 2 ^ 31 / inc
    rndConv (t * t) 31 + 2 * t + 2 ^ 31
  else 0

/-- The residual of a corner. -/
def blamp (ph inc : Nat) : Int :=
  let cube (u : Int) : Int := rndConv (rndConv (u * u) 31 * u) 31
  if ph < inc then cube (2 ^ 31 - ((ph * 2 ^ 31 / inc : Nat) : Int))
  else if 2 ^ 48 ≤ ph + inc ∧ inc ≠ 0 then cube (2 ^ 31 + ((ph : Int) - 2 ^ 48) * 2 ^ 31 / inc)
  else 0

/-- A virtual-analog wave; pw is PW_eff. -/
def vaWave (wave ph inc : Nat) (pw : Int) : Int :=
  if wave = 0 then sat (((ph / 2 ^ 16 : Nat) : Int) - 2 ^ 31 - blep ph inc) 32
  else if wave = 1 then
    let w : Nat := pw.toNat * 2 ^ 17
    let n : Int := if ph < w then 2 ^ 31 - 1 else -2 ^ 31
    sat (n + blep ph inc - blep ((ph + 2 ^ 48 - w) % 2 ^ 48) inc) 32
  else if wave = 2 then
    let t : Int := ((ph / 2 ^ 15 : Nat) : Int)
    let n : Int := if ph < 2 ^ 47 then t - 2 ^ 31 else 3 * 2 ^ 31 - t
    let c := blamp ph inc - blamp ((ph + 2 ^ 47) % 2 ^ 48) inc
    sat (n + rndConv (rndConv (((inc / 2 ^ 17 : Nat) : Int) * c) 31 * 0x55555555) 30) 32
  else sineQ ph

/-! ### Wavetable (R185-R187) -/

/-- n bytes of the tables at Gourd address a as a Pod reads them at the boundary: zero where a word is poisoned, and
whether one was. -/
def podRead (d : Dev) (a n : Nat) : Nat × Bool :=
  let bad := (rangeFrom a n).any (isPoisoned d)
  ((if bad then 0 else fromLE (mread d.gourd.mem a n)), bad)

/-- A sample of an image as Q1.31: level l, frame k of f, index i. -/
def wtSample (d : Dev) (base f l k i : Nat) : Int × Bool :=
  let off := 8 + 2 * (f * (4096 - 4096 / 2 ^ l) + k * (2048 / 2 ^ l) + i)
  let x := podRead d (base + off) 2
  (sgn 16 x.1 * 2 ^ 16, x.2)

/-- The level of R186. -/
def wtLevel (inc : Nat) : Nat := ((rangeFrom 0 9).filter (fun l => 2 ^ (37 + l) < inc)).length

/-- `frame_at` of R186. -/
def wtFrame (d : Dev) (base f l k ph : Nat) : Int × Bool :=
  let n := 11 - l
  let i := ph / 2 ^ (48 - n)
  let fr : Nat := ph / 2 ^ (32 - n) % 65536
  let a := wtSample d base f l k i
  let b := wtSample d base f l k ((i + 1) % 2 ^ n)
  (a.1 + rndConv ((b.1 - a.1) * fr) 16, a.2 || b.2)

/-- w of a wavetable oscillator at position pos (Q8.16 frames). -/
def wtWave (d : Dev) (base f ph inc : Nat) (pos : Int) : Int × Bool :=
  if f = 0 then (0, false)
  else
    let p : Nat := (clampI 0 (((f - 1) * 65536 : Nat) : Int) pos).toNat
    let l := wtLevel inc
    let k := p / 65536
    let kf : Nat := p % 65536
    let v0 := wtFrame d base f l k ph
    let v1 := if k + 1 < f then wtFrame d base f l (k + 1) ph else v0
    (v0.1 + rndConv ((v1.1 - v0.1) * kf) 16, v0.2 || v1.2)

/-- The directory entry of WT_ID at the note-on (R187, 13 R389): frame count and image address, 0 when empty. -/
def wtResolve (d : Dev) (id : Nat) : Nat × Nat :=
  let e := rs d 0x6100 (0x51 + id)
  let f := bitsOf e 27 19
  let base := 0x00818000 + 8 * bitsOf e 18 0
  if f = 0 ∨ (podRead d base 2).1 ≠ f ∨ (podRead d (base + 2) 1).1 ≠ 10 ∨ (podRead d (base + 3) 1).1 ≠ 0 then (0, 0)
  else (f, base)

/-- A word of the image header that R187 reads is poisoned (22 R652). -/
def wtBad (d : Dev) (id : Nat) : Bool :=
  let e := rs d 0x6100 (0x51 + id)
  bitsOf e 27 19 != 0 && (podRead d (0x00818000 + 8 * bitsOf e 18 0) 4).2

/-! ### Sample playback (R188-R194) -/

/-- Frame size of a region format (12 R338). -/
def fmtBytes (f : Nat) : Nat := nth 2 [2, 4, 3, 6] f

/-- Formats 1 and 3 are stereo. -/
def fmtStereo (f : Nat) : Bool := f = 1 || f = 3

/-- A frame's bytes as Q1.31 values. -/
def pcmOf (fmt : Nat) (bs : List Byte) : Int × Int :=
  if fmt = 0 then let a := sgn 16 (fromLE bs) * 2 ^ 16; (a, a)
  else if fmt = 1 then (sgn 16 (fromLE (bs.take 2)) * 2 ^ 16, sgn 16 (fromLE (bs.drop 2)) * 2 ^ 16)
  else if fmt = 2 then let a := sgn 24 (fromLE bs) * 2 ^ 8; (a, a)
  else (sgn 24 (fromLE (bs.take 3)) * 2 ^ 8, sgn 24 (fromLE (bs.drop 3)) * 2 ^ 8)

/-- Frame j of a region from Tuber memory. -/
def regionFrame (d : Dev) (z : Zone) (j : Nat) : Int × Int :=
  pcmOf z.fmt (mread d.tuber.mem (z.start + j * fmtBytes z.fmt) (fmtBytes z.fmt))

/-- The bytes of a frame, `pcmOf` read backwards. -/
def bytesOfPcm (fmt : Nat) (v : Int × Int) : List Byte :=
  let enc (n : Nat) (x : Int) : List Byte := toLE n (wrapU (8 * n) (x / (2 ^ (32 - 8 * n) : Nat)))
  if fmt = 0 then enc 2 v.1
  else if fmt = 1 then enc 2 v.1 ++ enc 2 v.2
  else if fmt = 2 then enc 3 v.1
  else enc 3 v.1 ++ enc 3 v.2

/-- Frame j as a Pod reads it, where word w of the head or of the buffer that holds it lies at `place w`: bytes of
poisoned words are zero (22 R652). -/
def frameRead (d : Dev) (place : Nat → Nat) (fmt j : Nat) (v : Int × Int) : Int × Int :=
  let fb := fmtBytes fmt
  pcmOf fmt ((List.zip (rangeFrom (j * fb) fb) (bytesOfPcm fmt v)).map (fun x =>
    if isPoisoned d (place (x.1 / 8)) then 0#8 else x.2))

/-- A word that holds a byte of frame j is poisoned. -/
def frameMet (d : Dev) (place : Nat → Nat) (fmt j : Nat) : Bool :=
  (rangeFrom (j * fmtBytes fmt) (fmtBytes fmt)).any (fun a => isPoisoned d (place (a / 8)))

/-- The entry (j, left, right) of a frame list. -/
def frameIn (l : List (Nat × Int × Int)) (j : Nat) : Option (Int × Int) :=
  (l.find? (fun x => x.1 = j)).map (fun x => x.2)

/-- Frame j for oscillator x of the voice with a serial number: from its head, or from its stream buffer. -/
def frameOf (d : Dev) (serial x : Nat) (z : Zone) (j : Nat) : Option (Int × Int) :=
  if j < headLen d z.region then some (frameRead d (headWordAt z.region) z.fmt j (regionFrame d z j))
  else match d.tuber.streams.find? (fun s => s.serial = serial && s.osc = x) with
    | some s => (frameIn s.frames j).map (frameRead d (streamWordAt d serial x) z.fmt j)
    | none => none

/-- Frame j of oscillator x's zone, as far as errors go: none where reading it meets one. -/
def frameSound (d : Dev) (serial x : Nat) (z : Zone) (j : Nat) : Option (Int × Int) :=
  let place := if j < headLen d z.region then headWordAt z.region else streamWordAt d serial x
  if frameMet d place z.fmt j && (frameOf d serial x z j).isSome then none else some (0, 0)

/-- Loop parameters in use: mode (0 when no loop is in use, R192), LS, LE. -/
structure LoopUse where
  mode : Nat
  ls : Int
  le : Int
deriving DecidableEq, Repr

/-- The loop of oscillator x's zone: LOOP_MODE and the points as at the note-on (R192, R202). -/
def loopOf (lat : AMap Byte) (x : Nat) (z : Zone) (released : Bool) : LoopUse :=
  let m := oU lat x 44 1
  if 1 ≤ m ∧ z.le ≤ z.len ∧ z.ls + 4 ≤ z.le ∧ ¬ (released ∧ oU lat x 45 1 = 1) then ⟨m, z.ls, z.le⟩ else ⟨0, 0, 0⟩

/-- The loop mapping of a tap (R191). -/
def tapMap (u : LoopUse) (looped : Bool) (j : Int) : Int :=
  if !looped || u.mode = 0 then j
  else if u.mode = 2 then
    let j := if u.le - 1 < j then 2 * (u.le - 1) - j else j
    if j < u.ls then 2 * u.ls - j else j
  else
    let j := if u.le ≤ j then j - (u.le - u.ls) else j
    if j < u.ls then j + (u.le - u.ls) else j

/-- A tap: the pair of channel values, and whether its frame was missing. -/
def tapAt (get : Nat → Option (Int × Int)) (len : Nat) (j : Int) : (Int × Int) × Bool :=
  if j < 0 ∨ (len : Int) ≤ j then ((0, 0), false)
  else match get j.toNat with
    | some v => (v, false)
    | none => ((0, 0), true)

/-- The cubic of R191 on four taps. -/
def cubic (ym y0 y1 y2 x : Int) : Int :=
  let c1 := y1 - ym
  let c2 := 2 * ym - 5 * y0 + 4 * y1 - y2
  let c3 := (y2 - ym) + 3 * (y0 - y1)
  let v := rndConv (c3 * x) 16 + c2
  let v := rndConv (v * x) 16 + c1
  sat (rndConv (v * x) 17 + y0) 32

/-- v of R191 at a position, per channel, with taps through `mp`. -/
def interpAt (get : Nat → Option (Int × Int)) (len interp : Nat) (mp : Int → Int) (pos : Int) :
    (Int × Int) × Bool :=
  let j := pos / (2 ^ 48 : Nat)
  let x := pos / (2 ^ 32 : Nat) % 65536
  let t (k : Int) := tapAt get len (mp k)
  let a := t j
  let b := t (j + 1)
  if interp = 0 then
    ((a.1.1 + rndConv ((b.1.1 - a.1.1) * x) 16, a.1.2 + rndConv ((b.1.2 - a.1.2) * x) 16), a.2 || b.2)
  else
    let m := t (j - 1)
    let c := t (j + 2)
    ((cubic m.1.1 a.1.1 b.1.1 c.1.1 x, cubic m.1.2 a.1.2 b.1.2 c.1.2 x), m.2 || a.2 || b.2 || c.2)

/-- The crossfade at a position (R193): partner position and g16, none outside the interval. -/
def xfadeAt (u : LoopUse) (len xfade : Nat) (fwd : Bool) (pos : Int) : Option (Int × Int) :=
  let one : Int := (2 ^ 48 : Nat)
  let l := u.le - u.ls
  if u.mode = 1 then
    let xe := min (min (xfade : Int) u.ls) l
    if 0 < xe ∧ (u.le - xe) * one ≤ pos ∧ pos < u.le * one then
      some (pos - l * one, (pos - (u.le - xe) * one) / (xe * (2 ^ 32 : Nat)))
    else none
  else if u.mode = 3 ∧ fwd = false then
    let xe := min (min (xfade : Int) ((len : Int) - u.le)) l
    if 0 < xe ∧ u.ls * one ≤ pos ∧ pos < (u.ls + xe) * one then
      some (pos + l * one, ((u.ls + xe) * one - pos) / (xe * (2 ^ 32 : Nat)))
    else none
  else none

/-- The advance of R191: new position, direction, looped. The repetition of its rules is in closed form. -/
def playAdvance (u : LoopUse) (pos inc : Int) (fwd looped : Bool) : Int × Bool × Bool :=
  let one : Int := (2 ^ 48 : Nat)
  let p := if fwd then pos + inc else pos - inc
  let l := (u.le - u.ls) * one
  let top := (u.le - 1) * one
  let bot := u.ls * one
  if u.mode = 1 ∧ u.le * one ≤ p then (p - ((p - u.le * one) / l + 1) * l, fwd, true)
  else if u.mode = 2 ∧ ((fwd = true ∧ top ≤ p) ∨ (fwd = false ∧ p < bot)) then
    let x := if fwd then p - bot else bot - p
    let w := top - bot
    let y := x % (2 * w)
    let looped := looped || w ≤ x
    if fwd = false ∧ x < w then (bot + x, true, looped)
    else if y = 0 then (bot, false, looped)
    else if y < w then (bot + y, true, looped)
    else (bot + 2 * w - y, false, looped)
  else if u.mode = 3 ∧ ((fwd = true ∧ top ≤ p) ∨ (fwd = false ∧ p < bot)) then
    let looped := looped || fwd
    let q := if fwd then 2 * top - p else p
    if q < bot then (q + ((bot - q + l - 1) / l) * l, false, looped) else (q, false, looped)
  else (p, fwd, looped)

/-- Increment of R189. -/
def playInc (d : Dev) (p : Int) (z : Zone) : Nat :=
  scaledInc (sat (p - z.root) 32) (kFor z.rate (engineRate d)) (2 ^ 52)

/-- One sample of sample playback: the waveform pair before LEVEL, the new oscillator state, whether a frame was missing
and whether one met an uncorrectable error. -/
def playStep (d : Dev) (v : Voice) (x : Nat) (p : Int) (o : Osc) : (Int × Int) × Osc × Bool × Bool :=
  match o.zone with
  | none => ((0, 0), o, false, false)
  | some z =>
    if o.ended then ((0, 0), o, false, false)
    else
      let o := if v.rel ≠ none ∧ oU v.lat x 45 1 = 1 then { o with looped := false, fwd := true } else o
      let u := loopOf v.lat x z v.rel.isSome
      let get := frameOf d v.serial x z
      let sound := frameSound d v.serial x z
      let interp := oU v.lat x 43 1
      let a := interpAt get z.len interp (tapMap u o.looped) o.pos
      let e := interpAt sound z.len interp (tapMap u o.looped) o.pos
      let f := match xfadeAt u z.len (oU v.lat x 46 2) o.fwd o.pos with
        | none => (a, e.2)
        | some (q, g) =>
          let b := interpAt get z.len interp (fun j => j) q
          (((a.1.1 + rndConv ((b.1.1 - a.1.1) * g) 16, a.1.2 + rndConv ((b.1.2 - a.1.2) * g) 16), a.2 || b.2),
            e.2 || (interpAt sound z.len interp (fun j => j) q).2)
      let n := playAdvance u o.pos (playInc d p z) o.fwd o.looped
      let o := { o with pos := n.1, fwd := n.2.1, looped := n.2.2
                        ended := n.2.1 && decide ((z.len : Int) * (2 ^ 48 : Nat) ≤ n.1) }
      (f.1.1, o, f.1.2, f.2)

/-! ### Noise (R195-R197) -/

/-- n draws shifted by 4, for the rows of pink noise. -/
def drawRows : Nat → Nat → List Int → List Int × Nat
  | 0, s, acc => (acc, s)
  | n + 1, s, acc => let x := draw s; drawRows n x.2 (acc ++ [x.1 / 16])

/-- Trailing zero bits of c, at most 15. -/
def trailing (c : Nat) : Nat → Nat
  | 0 => 0
  | n + 1 => if c % 2 = 1 then 0 else 1 + trailing (c / 2) n

/-- One noise sample. -/
def noiseStep (wave : Nat) (o : Osc) : Int × Osc :=
  let v := draw o.seed
  if wave = 0 then (v.1, { o with seed := v.2 })
  else
    let z := trailing o.cnt 15
    let y := draw v.2
    let rows := if z < 15 then setNth o.rows z (y.1 / 16) else o.rows
    let seed := if z < 15 then y.2 else v.2
    (v.1 / 16 + rows.foldl (· + ·) 0, { o with seed := seed, rows := rows, cnt := (o.cnt + 1) % 2 ^ 32 })

/-! ### One oscillator -/

/-- An oscillator with nothing in it. -/
def Osc.zero : Osc := ⟨0, 0, 0, 0, [], 1, 0, 0, none, 0, true, false, false, false⟩

/-- State of oscillator x at the note-on sample, but for what its pitch decides (R172, R187, R196). -/
def Osc.fresh (d : Dev) (lat : AMap Byte) (x serial : Nat) (zone : Option Zone) : Osc :=
  let s := seedOf serial x
  let pink := drawRows 15 s []
  let isPink := oU lat x 0 1 = 5 ∧ oU lat x 1 1 = 1
  let wt := if oU lat x 0 1 = 3 then wtResolve d (oU lat x 38 1) else (0, 0)
  { Osc.zero with seed := if isPink then pink.2 else s, rows := if isPink then pink.1 else [],
                  wtFrames := wt.1, wtBase := wt.2, zone := zone }

/-- The parts of the state set at the first sample: phase (R177) and position (R190). -/
def Osc.atStart (lat rec : AMap Byte) (x start inc : Nat) (held : AMap Int) (o : Osc) : Osc :=
  let sp := oU lat x 14 4 * 2 ^ 16
  let ph := if oU lat x 13 1 = 0 then sp else (sp + start * inc) % 2 ^ 48
  let ofs := clampI 0 (2 ^ 32 - 1) ((oU rec x 48 4 : Nat) + mget 0 held (0x18 + 0x10 * x))
  let len := match o.zone with
    | some z => z.len
    | none => 1
  { o with ph := ph, pos := min ofs ((len : Int) - 1) * (2 ^ 48 : Nat) }

/-- Base plus modulation of a block-rate field held to its range (R171). DEDUCED: log entry 49. -/
def heldEff (held : AMap Int) (code : Nat) (base lo hi : Int) : Int := clampI lo hi (base + mget 0 held code)

/-- One sample of oscillator x: inputs are its pitch, its LEVEL modulation and the outputs of earlier oscillators. -/
def oscStep (c : RCtx) (v : Voice) (x : Nat) (p mLevel : Int) (before : List Int) (o : Osc) : OscOut × Osc :=
  let mode := oU v.lat x 0 1
  let wave := oU v.lat x 1 1
  let d := c.d
  let lev := clampI 0 0x7FFFFFFF ((oU c.prog x 9 4 : Nat) + mLevel)
  let scale (w : Int) : Int := sat (rndConv (w * lev) 31) 32
  let inc := oscInc d p
  let step (o : Osc) : Osc := { o with ph := (o.ph + inc) % 2 ^ 48 }
  let code (k : Nat) : Nat := 0x10 * x + k
  if mode = 1 then
    let pw := clampI 0x028F5C29 0x7D70A3D7 ((oU c.prog x 18 4 : Nat) + mget 0 v.held (code 0x12))
    (OscOut.mono (scale (vaWave wave o.ph inc pw)), step o)
  else if mode = 2 then
    let pm (y : Nat) : Int := heldEff v.held (code (0x13 + y)) (oU c.prog x (22 + 4 * y) 4 : Nat) 0 0x80000000
    let acc := (rangeFrom 0 x).foldl (fun a y => a + 2 * nth 0 before y * pm y) 0
    let fb := heldEff v.held (code 0x16) (oU c.prog x 34 4 : Nat) 0 0x10000000
    let off := wrapU 48 (rndConv (acc + (o.fb1 + o.fb2) * fb) 12)
    let out := scale (sineQ ((o.ph + off) % 2 ^ 48))
    (OscOut.mono out, { step o with fb1 := out, fb2 := o.fb1 })
  else if mode = 3 then
    let pos := heldEff v.held (code 0x17) (oU c.prog x 39 4 : Nat) 0 0x00FF0000
    let w := wtWave d o.wtBase o.wtFrames o.ph inc pos
    ({ OscOut.mono (scale w.1) with ue := w.2 }, step o)
  else if mode = 4 then
    let w := playStep d v x p o
    let st := match o.zone with
      | some z => fmtStereo z.fmt
      | none => false
    (⟨scale w.1.1, if st then scale w.1.2 else scale w.1.1, st, w.2.2.1, w.2.2.2⟩, w.2.1)
  else if mode = 5 then
    let w := noiseStep wave o
    (OscOut.mono (scale w.1), w.2)
  else (OscOut.mono 0, o)

/-- The mixer of R198: MIX1 and MIX2. -/
def oscMix (rec lat : AMap Byte) (outs : List OscOut) : Int × Int :=
  let acc := (rangeFrom 0 4).foldl (fun (a : Int × Int) x =>
    let o := nth (OscOut.mono 0) outs x
    let g := oI rec x 53
    let rt := oU rec x 57 1
    if oU lat x 0 1 = 0 then a
    else if rt = 2 then (a.1 + o.l * g, a.2 + o.r * g)
    else if rt = 0 then (a.1 + o.mix * g, a.2)
    else (a.1, a.2 + o.mix * g)) (0, 0)
  (sat (rndConv acc.1 28) 32, sat (rndConv acc.2 28) 32)

end Sys2Proof.Machine
end

