-- ==== Sys2Proof/Machine/Filter.lean ====
section
/-!
DEFINITION. Sys2Proof/Machine/Filter.lean: the filter section, waveshaper, amplifier, pan and sends of a voice
(07 R203-R221) and the fade ramp (10 R296).
-/
namespace Sys2Proof.Machine

/-- A filter at the note-on sample: every word zero (R204). -/
def Filt.zero : Filt := ⟨0, 0, 0, 0, [], 0⟩

/-- Latched TYPE, SUBTYPE of filter i and the latched ROUTING. -/
def fltType (lat : AMap Byte) (i : Nat) : Nat := rB lat (fltAt i)
def fltSub (lat : AMap Byte) (i : Nat) : Nat := rB lat (fltAt i + 1)
def fltRouting (lat : AMap Byte) : Nat := rB lat (fltAt 0 + 22)

/-- What a filter uses for both sub-samples of an engine sample: type, subtype, gain g, phase increment w, RES,
DRIVE, OUT_GAIN, comb line length, the words of the line that are poisoned in the store, and the sub-samples of the line that the
store holds. -/
structure FiltCfg where
  ty : Nat
  sub : Nat
  g : Int
  w : Nat
  res : Int
  drive : Int
  gain : Int
  lc : Nat
  bad : List Nat
  since : Nat
deriving DecidableEq, Repr

/-- Length of the comb line of each filter of a latched record (R214). -/
def combLen (lat : AMap Byte) : Nat := if fltType lat 0 = 3 ∧ fltType lat 1 = 3 then 512 else 1024

/-- Words of the line of filter i that are poisoned in the comb store of a spot (22 R652). -/
def combBad (d : Dev) (spot i lc : Nat) : List Nat :=
  if poisonedWithin d (0x01A60000 + 4096 * spot) 4096 then
    (rangeFrom 0 lc).filter (fun j => isPoisoned d (combWordAt spot i j))
  else []

/-- The spot whose store holds, as applied at the boundary of the window at hand, the voice's line: a voice that has entered a lane
since the block before it is still read from its slot's (R214). DEDUCED: log entry 57. -/
def combSpot (c : RCtx) (v : Voice) : Nat := match v.lane with
  | some (s, _) => if v.pos - v.pos % blockLen c.d - blockLen c.d ≤ s then v.slot else c.spot
  | none => c.spot

/-- The configuration of filter i at a sample (R209, R210, R214): the window that computes block k + 2 reads from the store the line as
at the start of block k + 1, and keeps what that block wrote. DEDUCED: log entries 49, 57. -/
def fltCfg (c : RCtx) (v : Voice) (i : Nat) (pNote mCut : Int) : FiltCfg :=
  let at' := fltAt i
  let cut := clampI (-471859200) 471859200 (rI32 c.prog (at' + 2) + mCut)
  let p := sat (rndConv (rI32 c.prog (at' + 6) * pNote) 28 + cut) 32
  let w := oscInc c.d p
  ⟨fltType v.lat i, fltSub v.lat i, tanGain (w / 2 ^ 16), w,
   heldEff v.held (0x51 + 8 * i) (rI32 c.prog (at' + 10)) 0 0x7FFFFFFF,
   heldEff v.held (0x52 + 8 * i) (rI32 c.prog (at' + 14)) 0x10000000 0x80000000,
   heldEff v.held (0x53 + 8 * i) (rI32 c.prog (at' + 18)) (-0x80000000) 0x80000000,
   combLen v.lat, combBad c.d (combSpot c v) i (combLen v.lat),
   (if i = 0 then v.f1 else v.f2).t - 2 * (v.pos % blockLen c.d) - 2 * blockLen c.d⟩

/-- The state-variable filter (R212). -/
def svf (c : FiltCfg) (x : Int) (s : Filt) : Int × Filt :=
  let k := 2 ^ 32 - 2 * c.res
  let dd := 2 ^ 31 + rndConv (c.g * (c.g + k)) 31
  let a1 := (2 ^ 62 + dd / 2) / dd
  let a2 := rndConv (c.g * a1) 31
  let a3 := rndConv (c.g * a2) 31
  let v0 := x * 2 ^ 14
  let v3 := v0 - s.w2
  let v1 := sat (rndConv (a1 * s.w1 + a2 * v3) 31) 48
  let v2 := sat (s.w2 + rndConv (a2 * s.w1 + a3 * v3) 31) 48
  let kv := rndConv (k * v1) 31
  let y := if c.sub = 0 then v2 else if c.sub = 1 then v1 else if c.sub = 2 then v0 - kv - v2
           else if c.sub = 3 then v0 - kv else 2 * v2 - v0 + kv
  (sat (rndConv y 14) 32, { s with w1 := sat (2 * v1 - s.w1) 48, w2 := sat (2 * v2 - s.w2) 48 })

/-- One ladder stage: input t, state s, gain G; the stage output and the new state. -/
def ladderStage (g t s : Int) : Int × Int :=
  let v := rndConv ((t - s) * g) 31
  let y := sat (v + s) 48
  (y, sat (y + v) 48)

/-- The ladder filter (R213). -/
def ladder (c : FiltCfg) (x : Int) (s : Filt) : Int × Filt :=
  let g := (c.g * 2 ^ 31 + (2 ^ 31 + c.g) / 2) / (2 ^ 31 + c.g)
  let h := 2 ^ 31 - g
  let g2 := rndConv (g * g) 31
  let g4 := rndConv (g2 * g2) 31
  let k := 4 * c.res
  let e := 2 ^ 31 + rndConv (k * g4) 31
  let cc := (2 ^ 62 + e / 2) / e
  let sum := [s.w1, s.w2, s.w3, s.w4].foldl (fun a w => rndConv (a * g) 31 + rndConv (w * h) 31) 0
  let v0 := rndConv (x * 2 ^ 14 * c.drive) 28
  let u := sat (rndConv ((v0 - rndConv (k * sum) 31) * cc) 31) 48
  let t := tanhQ u 45 * 2 ^ 14
  let y1 := ladderStage g t s.w1
  let y2 := ladderStage g y1.1 s.w2
  let y3 := ladderStage g y2.1 s.w3
  let y4 := ladderStage g y3.1 s.w4
  let y := if c.sub = 0 then y4.1 else y2.1
  (sat (rndConv y 14) 32, { s with w1 := y1.2, w2 := y2.2, w3 := y3.2, w4 := y4.2 })

/-- Word j of a comb line is read from the store and is poisoned there. -/
def combMetAt (c : FiltCfg) (j : Int) : Bool := decide (0 ≤ j ∧ j.toNat < c.since) && c.bad.contains (j.toNat % c.lc)

/-- Word j of a comb line; 0 for j < 0, and for a poisoned word (22 R652). -/
def combLine (c : FiltCfg) (s : Filt) (j : Int) : Int :=
  if j < 0 ∨ combMetAt c j = true then 0 else mget 0 s.line (j.toNat % c.lc)

/-- The delay of R215 in 1/65,536 of a sub-sample. -/
def combDelay (c : FiltCfg) : Nat := min (max (2 ^ 65 / max c.w 1) (2 ^ 17)) ((c.lc - 2) * 2 ^ 16)

/-- A filter meets a poisoned word of its line in the two sub-samples of a sample. -/
def combMet (c : FiltCfg) (s : Filt) : Bool :=
  let j : Int := (s.t : Int) - (combDelay c / 2 ^ 16 : Nat)
  c.ty = 3 && (combMetAt c (j - 1) || combMetAt c j || combMetAt c (j + 1))

/-- The comb filter (R215). -/
def comb (c : FiltCfg) (x : Int) (s : Filt) : Int × Filt :=
  let dq := combDelay c
  let di : Nat := dq / 2 ^ 16
  let df : Nat := dq % 2 ^ 16
  let y0 := combLine c s ((s.t : Int) - di)
  let y1 := combLine c s ((s.t : Int) - di - 1)
  let r := y0 + rndConv ((y1 - y0) * df) 16
  let fb := if c.sub = 0 then c.res else -c.res
  let y := sat (x + rndConv (r * fb) 31) 32
  (y, { s with line := mput 0 s.line (s.t % c.lc) y, t := s.t + 1 })

/-- A filter with its output gain (R208); TYPE 0 passes its input. -/
def fltRun (c : FiltCfg) (x : Int) (s : Filt) : Int × Filt :=
  let r := if c.ty = 1 then svf c x s else if c.ty = 2 then ladder c x s else if c.ty = 3 then comb c x s else (x, s)
  (sat (rndConv (r.1 * c.gain) 28) 32, r.2)

/-- The routing of R203 for one sub-sample: left (or mono) and right outputs and the filter states. -/
def fltRoute (routing : Nat) (c1 c2 : FiltCfg) (m1 m2 : Int) (s1 s2 : Filt) : Int × Int × Filt × Filt :=
  let a := fltRun c1 m1 s1
  let b := fltRun c2 (if routing = 0 then sat (a.1 + m2) 32 else m2) s2
  if routing = 0 then (b.1, b.1, a.2, b.2)
  else if routing = 1 then let y := sat (a.1 + b.1) 32; (y, y, a.2, b.2)
  else (a.1, b.1, a.2, b.2)

/-- The half-band decimator on its last 15 sub-samples, newest first (R206). -/
def decimate (h : List Int) : Int :=
  let d (i : Nat) := nth 0 h i
  let acc := 1073741824 * d 7 + 642252800 * (d 6 + d 8) - 128450560 * (d 4 + d 10)
             + 25690112 * (d 2 + d 12) - 2621440 * (d 0 + d 14)
  sat (rndConv acc 31) 32

/-- A comb filter of the voice meets an uncorrectable error in this sample. -/
def fltMet (c : RCtx) (v : Voice) (pNote mCut1 mCut2 : Int) : Bool :=
  combMet (fltCfg c v 0 pNote mCut1) v.f1 || combMet (fltCfg c v 1 pNote mCut2) v.f2

/-- The filter section on one engine sample (R203-R207): the pair of outputs and the voice with its states. -/
def fltSection (c : RCtx) (v : Voice) (pNote mCut1 mCut2 : Int) (mix : Int × Int) : (Int × Int) × Voice :=
  let rt := fltRouting v.lat
  let c1 := fltCfg c v 0 pNote mCut1
  let c2 := fltCfg c v 1 pNote mCut2
  if c1.ty = 0 ∧ c2.ty = 0 then
    let r := fltRoute rt c1 c2 mix.1 mix.2 v.f1 v.f2
    ((r.1, r.2.1), v)
  else
    let a := fltRoute rt c1 c2 (rndConv (v.xp1 + mix.1) 1) (rndConv (v.xp2 + mix.2) 1) v.f1 v.f2
    let b := fltRoute rt c1 c2 mix.1 mix.2 a.2.2.1 a.2.2.2
    let h1 := (b.1 :: a.1 :: v.dec1).take 15
    let h2 := if rt = 2 then (b.2.1 :: a.2.1 :: v.dec2).take 15 else v.dec2
    let o1 := decimate h1
    let o2 := if rt = 2 then decimate h2 else o1
    ((o1, o2), { v with f1 := b.2.2.1, f2 := b.2.2.2, xp1 := mix.1, xp2 := mix.2, dec1 := h1, dec2 := h2 })

/-! ### Waveshaper (R216, R217) -/

/-- Entry i of a user curve, and whether it met an uncorrectable error. -/
def curveAt (d : Dev) (curve i : Nat) : Int × Bool :=
  let x := podRead d (0x00808000 + 1024 * curve + 4 * i) 4
  (sgn 32 x.1, x.2)

/-- SHP on one channel. -/
def shape (c : RCtx) (v : Voice) (x : Int) : Int × Bool :=
  let curve := rB c.prog 0x4C0
  let drive := heldEff v.held 0x60 (rI32 c.prog 0x4C1) 0x10000000 0x80000000
  let mix := heldEff v.held 0x61 (rI32 c.prog 0x4C5) 0 0x7FFFFFFF
  let user := rB v.lat 0x4C9
  let a := rndConv (x * drive) 28
  let out (y : Int) : Int := sat (x + rndConv ((y - x) * mix) 31) 32
  if curve = 1 then (out (tanhQ a 31), false)
  else if curve = 2 then (out (sat a 32), false)
  else if curve = 3 then
    let k := sat a 32
    (out (sat (rndConv (3 * k - rndConv (rndConv (k * k) 31 * k) 31) 1) 32), false)
  else if curve = 4 then (out (sineQ (wrapU 48 (a * 2 ^ 15))), false)
  else if curve = 5 then (out (if 0 ≤ a then tanhQ a 31 else rndConv (tanhQ (2 * a) 31) 1), false)
  else if curve = 6 ∧ bitOf (rs c.d 0x6100 0x91) user then
    let p : Nat := (sat a 32 + 2 ^ 31).toNat
    let i := p / 2 ^ 24
    let f : Nat := p % 2 ^ 24
    let u := curveAt c.d user i
    let n := curveAt c.d user (min 255 (i + 1))
    (out (u.1 + rndConv ((n.1 - u.1) * f) 24), u.2 || n.2)
  else (x, false)

/-! ### Amplifier, ramp, pan, sends (R218-R220) -/

/-- The ramp value r_n of a lane of length f (10 R296). -/
def rampAt (f n : Nat) : Int := min (rndConv (sineQ (2 ^ 46 + (n + 1) * 2 ^ 47 / f) + 2 ^ 31) 1) (2 ^ 31 - 1)

/-- Pan gains (gL, gR) of R219. -/
def panGains (law : Nat) (mono : Bool) (pan : Int) : Int × Int :=
  if law = 0 ∧ mono then
    let ph := ((pan + 2 ^ 31) * 2 ^ 14).toNat
    (sineQ (ph + 2 ^ 46), sineQ ph)
  else (min (2 ^ 31 - 1) (2 ^ 31 - pan), min (2 ^ 31 - 1) (2 ^ 31 + pan))

/-- AMP, the lane ramp and pan on the shaped pair: L and R. DEDUCED: log entry 49. -/
def ampPan (c : RCtx) (v : Voice) (e1 mLevel : Int) (ramp : Option Int) (x : Int × Int) : Int × Int :=
  let lev := clampI 0 0x80000000 (rI32 c.prog 0x4CC + mLevel)
  let a := rndConv (e1 * lev) 31
  let scale (x : Int) : Int :=
    let s := sat (rndConv (x * a) 28) 32
    match ramp with
    | some r => sat (rndConv (s * r) 31) 32
    | none => s
  let pan := heldEff v.held 0x69 (rI32 c.prog 0x4D0) (-0x80000000) 0x7FFFFFFF
  let g := panGains (rB c.prog 0x4D4) (fltRouting v.lat ≠ 2) pan
  (sat (rndConv (scale x.1 * g.1) 31) 32, sat (rndConv (scale x.2 * g.2) 31) 32)

/-- Terms of send s (0-3): (bus channel, value) (R220). -/
def sendTerms (c : RCtx) (v : Voice) (s : Nat) (l r : Int) : List (Nat × Int) :=
  let m := rB c.prog (sendAt s)
  let dst := rB c.prog (sendAt s + 1)
  let lv := heldEff v.held (0x70 + s) (rI32 c.prog (sendAt s + 2)) (-0x80000000) 0x80000000
  let t (x : Int) : Int := sat (rndConv (x * lv) 28) 32
  if m = 1 then
    let b := if dst = 255 then rs c.d (0x3000 + v.part) 0x15 else dst
    [(2 * b, t l), (2 * b + 1, t r)]
  else if m = 2 then [(dst, t (rndConv (l + r) 1))]
  else []

/-- Bus channels that a program's sends route to (R220, R221). -/
def sendChannels (d : Dev) (prog : AMap Byte) (part : Nat) : List Nat :=
  (rangeFrom 0 4).flatMap (fun s =>
    let m := rB prog (sendAt s)
    let dst := rB prog (sendAt s + 1)
    if m = 1 then
      let b := if dst = 255 then rs d (0x3000 + part) 0x15 else dst
      [2 * b, 2 * b + 1]
    else if m = 2 then [dst] else [])

end Sys2Proof.Machine
end

