-- ==== Sys2Proof/Machine/Ump.lean ====
section
/-!
DEFINITION. Sys2Proof/Machine/Ump.lean: UMP packets (11 R311-R315): sizes, classes, widened values, the part tests
of 09 R264, R265 and R273, and the MIDI 1.0 byte parser of 11 R316.
-/
namespace Sys2Proof.Machine

/-- `up(v, n, w)` of R314. -/
def up (v n w : Nat) : Nat :=
  let c := 2 ^ (n - 1)
  if v ≤ c then v * 2 ^ (w - n) else 2 ^ (w - 1) + (v - c) * (2 ^ (w - 1) - 1) / (c - 1)

/-- Message type, group, status, channel and the two low bytes of UMP word 0. -/
def umpMt (u0 : Nat) : Nat := bitsOf u0 31 28
def umpGroup (u0 : Nat) : Nat := bitsOf u0 27 24
def umpStatus (u0 : Nat) : Nat := bitsOf u0 23 20
def umpChannel (u0 : Nat) : Nat := bitsOf u0 19 16
def umpB2 (u0 : Nat) : Nat := bitsOf u0 15 8
def umpB3 (u0 : Nat) : Nat := bitsOf u0 7 0

/-- Words of a packet of a message type (R311). -/
def umpWords (mt : Nat) : Nat := nth 1 [1, 1, 1, 2, 2, 4, 1, 1, 2, 2, 2, 3, 3, 4, 4, 4] mt

/-- CLASS of a channel voice packet (R312, R314), none when the packet creates no item. -/
def umpClass (u0 : Nat) : Option Nat :=
  let s := umpStatus u0
  if umpMt u0 = 2 then
    if s = 9 then some (if umpB3 u0 = 0 then 1 else 2)
    else if s = 8 then some 1
    else if s = 0xA then some 3
    else if 0xB ≤ s ∧ s ≤ 0xE then some 0
    else none
  else if umpMt u0 = 4 then
    if s = 9 then some 2
    else if s = 8 then some 1
    else if s = 0xA ∨ s = 0 ∨ s = 1 ∨ s = 6 ∨ s = 0xF then some 3
    else if 0xB ≤ s ∧ s ≤ 0xE then some 0
    else none
  else none

/-- Whether a packet is a note-on or a note-off as received. -/
def umpIsNote (u0 : Nat) : Bool := umpStatus u0 = 8 || umpStatus u0 = 9

/-- 16-bit velocity of a note-on or note-off (R314). -/
def umpVel (u0 u1 : Nat) : Nat :=
  if umpMt u0 = 4 then u1 / 65536 % 65536
  else if umpStatus u0 = 9 ∧ umpB3 u0 = 0 then 32768
  else up (umpB3 u0 % 128) 7 16

/-- 32-bit value of a controller or pressure (R314). -/
def umpVal32 (u0 u1 : Nat) : Nat :=
  if umpMt u0 = 4 then u1
  else if umpStatus u0 = 0xD then up (umpB2 u0 % 128) 7 32
  else if umpStatus u0 = 0xE then up (umpB2 u0 % 128 + 128 * (umpB3 u0 % 128)) 14 32
  else up (umpB3 u0 % 128) 7 32

/-- The 7-bit velocity of 06 R188: the upper seven bits of the 16-bit velocity. -/
def vel7 (v16 : Nat) : Nat := v16 / 512

/-- A field of part p in the active version. -/
def pf (d : Dev) (p sub : Nat) : Nat := rs d (0x3000 + p) sub

/-- Part p is enabled in the active version. -/
def partOn (d : Dev) (p : Nat) : Bool := pf d p 0x01 = 1

/-- Whether channel c lies in the part's MPE zone, and whether it is the manager (R273). -/
def mpeManager (d : Dev) (p : Nat) : Nat := if pf d p 0x18 = 1 then 0 else 15
def mpeMember (d : Dev) (p c : Nat) : Bool :=
  let n := pf d p 0x19
  if pf d p 0x18 = 1 then 1 ≤ c && c ≤ n else 15 - n ≤ c && c ≤ 14

/-- R265: the key and velocity ranges of a note-on; every other packet passes. -/
def rangeTakes (d : Dev) (p u0 u1 : Nat) : Bool :=
  if umpClass u0 = some 2 then
    let note := umpB2 u0 % 128
    let v := vel7 (umpVel u0 u1)
    pf d p 0x06 % 256 ≤ note && note ≤ pf d p 0x06 / 256 && pf d p 0x07 % 256 ≤ v && v ≤ pf d p 0x07 / 256
  else true

/-- R264 and R273: whether a packet from port P matches part p. -/
def partMatches (d : Dev) (p src u0 : Nat) : Bool :=
  let c := umpChannel u0
  partOn d p && bitOf (pf d p 0x03) src &&
  (pf d p 0x04 = 0xFF || pf d p 0x04 = umpGroup u0) &&
  (if pf d p 0x18 = 0 then pf d p 0x05 = 0xFF || pf d p 0x05 = c
   else mpeMember d p c || (c = mpeManager d p && !umpIsNote u0))

/-- One packet: its words. -/
abbrev Packet := List Nat

/-- Split words into whole packets; none where the words end inside a packet (04 R120). -/
def packetsOf : Nat → List Nat → Option (List Packet)
  | 0, l => if l = [] then some [] else none
  | _ + 1, [] => some []
  | n + 1, w :: r =>
    let k := umpWords (umpMt w)
    if (w :: r).length < k then none
    else match packetsOf n ((w :: r).drop k) with
      | some ps => some ((w :: r).take k :: ps)
      | none => none

/-- Words 0 and 1 of a packet. -/
def pkt0 (p : Packet) : Nat := nth 0 p 0
def pkt1 (p : Packet) : Nat := if umpMt (pkt0 p) = 4 then nth 0 p 1 else 0

/-- Parts that a channel voice packet from port code src matches, in ascending number. -/
def matchParts (d : Dev) (src : Nat) (p : Packet) : List Nat :=
  match umpClass (pkt0 p) with
  | none => []
  | some _ => (rangeFrom 0 256).filter (fun q =>
      partMatches d q src (pkt0 p) && rangeTakes d q (pkt0 p) (pkt1 p))

/-- The 0x7E dev 0x06 0x01 inquiry of R315 in an MT 0x3 packet: answers its group when addressed. -/
def inquiryOf (p : Packet) : Option Nat :=
  let w := pkt0 p
  let w1 := nth 0 p 1
  if umpMt w = 3 ∧ umpStatus w = 0 ∧ umpChannel w = 4 ∧ umpB2 w = 0x7E ∧
      (umpB3 w = 0x7F ∨ umpB3 w = umpGroup w) ∧ bitsOf w1 31 24 = 6 ∧ bitsOf w1 23 16 = 1 then
    some (umpGroup w)
  else none

end Sys2Proof.Machine
end

