-- ==== Sys2Proof/Machine/Voice.lean ====
section
/-!
DEFINITION. Sys2Proof/Machine/Voice.lean: one engine sample of a voice (06 R170, 08 R228), the note pitch (09 R267,
R268), and the rendering of a voice up to a sample with its sends into the Pod's vectors (07 R220, 03 R81).
-/
namespace Sys2Proof.Machine

/-! ### The note pitch -/

/-- Entry k of tuning table t as a Pod reads it (R277). -/
def tuning (d : Dev) (t k : Nat) : Int :=
  if isPoisoned d (0x00800000 + 512 * t + 4 * k) then 0 else sgn 32 (rs d (0x3800 + t) (k + 1))

/-- `base` of R267 for a key' and an optional Pitch 7.9 attribute. -/
def baseOf (d : Dev) (p key : Nat) (attr : Option Int) : Int :=
  match attr with
  | some a => (a - 35328) * 12800 + sgn 16 (pf d p 0x08) * 6553600
  | none =>
    let e := ((key : Int) - 69) * 6553600
    if pf d p 0x09 = 0xFF then e else e + tuning d (pf d p 0x09) key

/-- The glide term g of R268 at sample s for a record (start, G0, N). -/
def glideAt (g0 : Int) (start n s : Nat) : Int :=
  if s - start < n then g0 - g0 * ((s - start : Nat) : Int) / n else 0

/-- P_note of a voice at sample s (R267). -/
def noteP (d : Dev) (ps : PartSt) (v : Voice) (s : Nat) : Int :=
  let bend := rndConv (((ps.bend : Int) - 2 ^ 31) * (pf d v.part 0x0B : Nat)) 31
  let nb := rndConv (((v.npb : Int) - 2 ^ 31) * (pf d v.part 0x0C : Nat)) 31
  sat (baseOf d v.part v.bkey v.pitch + sgn 32 (pf d v.part 0x0A) + bend + nb + glideAt v.g0 v.gStart v.gLen s) 32

/-- The voice reads a tuning entry that is poisoned. -/
def tuningBad (d : Dev) (v : Voice) : Bool :=
  v.pitch.isNone && pf d v.part 0x09 != 0xFF &&
  isPoisoned d (0x00800000 + 512 * pf d v.part 0x09 + 4 * v.bkey)

/-! ### One sample -/

/-- What one sample of a voice gives: the voice after it, L and R, whether oscillators 0-3 missed a frame, whether
an uncorrectable error was met. -/
structure VStep where
  v : Voice
  l : Int
  r : Int
  miss : List Bool
  ue : Bool
deriving Repr

/-- The context a voice renders in. -/
def ctxOf (d : Dev) (spot : Nat) (v : Voice) : RCtx :=
  let m := podRecord d v.program
  ⟨d, mget PartSt.zero d.alloc.parts v.part, m, activeSlots m, spot⟩

/-- ENV1 of a voice is DONE (08 R236). -/
def voiceDone (v : Voice) : Bool := (nth Env.fresh v.envs 0).st = .done

/-- The oscillators A to D in order (R170 orders 2 to 5). -/
def oscsStep (c : RCtx) (v : Voice) (pNote : Int) (val : Nat → Int) : List OscOut × List Osc :=
  let all := matrixSum val c.slots 0x08
  (rangeFrom 0 4).foldl (fun (a : List OscOut × List Osc) x =>
    let m := matrixSum val c.slots (0x10 + 0x10 * x) + all
    let o := nth Osc.zero v.oscs x
    let p := oscPitch c.prog x pNote m
    let o := if v.pos = v.start then Osc.atStart v.lat c.prog x v.start (oscInc c.d p) v.held o else o
    let r := oscStep c v x p (matrixSum val c.slots (0x11 + 0x10 * x)) (a.1.map OscOut.mix) o
    (a.1 ++ [r.1], a.2 ++ [r.2])) ([], [])

/-- Steps 2 to 7 of R228 at sample v.pos; `first` tells the first sample of a block. -/
def voiceStep (c : RCtx) (first : Bool) (v : Voice) : VStep :=
  let s := v.pos
  let val := srcValue c.d c.ps c.prog v s
  let e1 := envOut (nth Env.fresh v.envs 0)
  let v := if first || s = v.start then { v with held := heldSums val c.slots } else v
  let v := { v with envs := (rangeFrom 0 6).map (fun e => envPending v.lat e (timeScale v.held e) (nth Env.fresh v.envs e)) }
  let pn := noteP c.d c.ps v s
  let os := oscsStep c v pn val
  let v := { v with oscs := os.2 }
  let m1 := matrixSum val c.slots 0x50
  let m2 := matrixSum val c.slots 0x58
  let met := fltMet c v pn m1 m2
  let fs := fltSection c v pn m1 m2 (oscMix c.prog v.lat os.1)
  let v := fs.2
  let a := shape c v fs.1.1
  let b := if fltRouting v.lat = 2 then shape c v fs.1.2 else a
  let ramp := match v.lane with
    | some (st, f) => some (rampAt f (s - st))
    | none => none
  let lr := ampPan c v e1 (matrixSum val c.slots 0x68) ramp (a.1, b.1)
  let envs := (rangeFrom 0 6).map (fun e => envAdvance v.lat e (timeScale v.held e) (nth Env.fresh v.envs e))
  let lfos := (rangeFrom 0 4).map (fun l => lfoAdvance c.d v.lat l (lfoRate c.prog v.held l) (nth ⟨0, 0, 0⟩ v.lfos l))
  ⟨{ v with envs := envs, lfos := lfos, pos := s + 1 }, lr.1, lr.2, os.1.map (·.miss),
   a.2 || b.2 || met || os.1.any (·.ue)⟩

/-! ### Rendering -/

/-- Key of a voice's term of word i of the vector of bus channel ch at position o. -/
def vecKey (o serial ch i : Nat) : Nat := (128 * (o * 2 ^ 64 + serial) + ch) * 64 + i

/-- Add the send terms of a sample into the voice's terms of the position's vectors. -/
def addSends (c : RCtx) (v : Voice) (o i : Nat) (l r : Int) (m : AMap Int) : AMap Int :=
  (rangeFrom 0 4).foldl (fun m s =>
    (sendTerms c v s l r).foldl (fun m t => let k := vecKey o v.serial t.1 i
      mput 0 m k (wrapS 64 (mget 0 m k + t.2))) m) m

/-- A voice computes zeros from here on: its ENV1 is DONE or its lane's ramp has ended (10 R282, R297). -/
def voiceSilent (v : Voice) : Bool :=
  voiceDone v || (match v.lane with
    | some (s, f) => s + f ≤ v.pos
    | none => false)

/-- What the rendering of a voice carries: the voice, the vectors, the oscillators that missed a frame, errors. -/
structure Rend where
  v : Voice
  out : AMap Int
  miss : List Bool
  ue : Bool
deriving Repr

/-- The status word of 10 R281 that is staged at the last sample of a block (03 R71): e of that sample, ENDED after it, and
where its oscillators stand (12 R349). -/
def noteStatus (b : Nat) (before after : Voice) : Voice :=
  if after.pos % b = 0 then
    { after with word := some ⟨before.pos / b, voiceDone after, envOut (nth Env.fresh before.envs 0),
      after.oscs.map (fun o => (o.pos, o.fwd, o.looped))⟩ }
  else after

/-- Render n samples of a voice at position o. -/
def renderN (c : RCtx) (o : Nat) : Nat → Rend → Rend
  | 0, x => x
  | n + 1, x =>
    if voiceSilent x.v then renderN c o n { x with v := noteStatus (blockLen c.d) x.v { x.v with pos := x.v.pos + 1 } }
    else
      let b := blockLen c.d
      let i := x.v.pos % b
      let r := voiceStep c (i = 0) x.v
      let m := (rangeFrom 0 4).map (fun k => nth false x.miss k || nth false r.miss k)
      renderN c o n ⟨noteStatus b x.v r.v, addSends c r.v o i r.l r.r x.out, m, x.ue || r.ue⟩

/-- Count the underruns of a voice in a block (06 R194, 03 R89): once per oscillator and block. -/
def countMisses (d : Dev) (v : Voice) (miss : List Bool) (block : Nat) : Dev × Voice :=
  (rangeFrom 0 4).foldl (fun (a : Dev × Voice) x =>
    let o := nth Osc.zero a.2.oscs x
    if nth false miss x ∧ o.under = false then
      (voidAt (bump a.1 0x0110 0x03) 2 block, { a.2 with oscs := setNth a.2.oscs x { o with under := true } })
    else a) (d, v)

/-- The position of a spot. -/
def spotPos (spot : Nat) : Nat := if spot < 1152 then spot / 32 else (spot - 1152) / 8

/-- Render the voice of a spot up to sample `upto` (exclusive), within one block. -/
def renderTo (d : Dev) (spot upto : Nat) (v : Voice) : Dev × Voice :=
  if upto ≤ v.pos then (d, v)
  else
    let c := ctxOf d spot v
    let block := v.pos / blockLen d
    let r := renderN c (spotPos spot) (upto - v.pos) ⟨v, d.alloc.podOut, [], false⟩
    let sounded := !voiceSilent v
    let d := { d with alloc := { d.alloc with podOut := r.out } }
    let d := if r.ue || (sounded && (podRecordBad d v.program || tuningBad d v)) then voidAt d 0 block else d
    countMisses d r.v r.miss block

end Sys2Proof.Machine
end

