-- ==== Sys2Proof/Machine/Alloc.lean ====
section
/-!
DEFINITION. Sys2Proof/Machine/Alloc.lean: voice allocation (10 R278-R300): positions and charges, the view of a
window, placing, candidates and steals, starting a voice with its zones and streams (06 R188, 12 R343, R348).
-/
namespace Sys2Proof.Machine

/-! ### Positions, voices and charges -/

/-- The Pod that serves position o. -/
def podOf (d : Dev) (o : Nat) : Option Nat := nth none d.alloc.serve o

/-- Positions the configuration provides (R278). -/
def posConfigured (d : Dev) : Nat := if rs d 0x4C10 0x02 = 1 then 36 else 32

/-- Position o is in service. -/
def posIn (d : Dev) (o : Nat) : Bool := o < posConfigured d && (podOf d o).isSome

/-- Positions in service, ascending. -/
def positionsIn (d : Dev) : List Nat := (rangeFrom 0 (posConfigured d)).filter (posIn d)

/-- The derating d in force (23 R697). -/
def derate (d : Dev) : Nat := oGet d 0x8200 0x03 + oGet d 0x8220 0x08

/-- BUDGET of R20 for a rate code and derating. -/
def budgetAt (code dr : Nat) : Nat := 600 * (20 - dr) / nth 1 [1, 2, 4] (code / 2)

/-- BUDGET in force. -/
def budget (d : Dev) : Nat := budgetAt (rs d 0x2010 0x01) (derate d)

/-- LIMIT of R280. -/
def slotLimit (d : Dev) : Nat := budget d - budget d * rs d 0x4C00 0x01 / 100

/-- COST of a voice in the active version. -/
def vCost (d : Dev) (v : Voice) : Nat := costOf d.ver.active v.program

/-- SC and LC of position o. -/
def slotCharge (d : Dev) (o : Nat) : Nat :=
  ((d.alloc.slots.filter (fun x => x.1 / 32 = o)).map (fun x => vCost d x.2)).sum
def laneCharge (d : Dev) (o : Nat) : Nat :=
  ((d.alloc.lanes.filter (fun x => x.1 / 8 = o)).map (fun x => vCost d x.2)).sum

/-- A reduction is environmental (R301). -/
def environmental (d : Dev) : Bool := 0 < derate d || (positionsIn d).length < posConfigured d

/-- An environmental decision that acts in a block: VOID_CAUSE bit 0 and CAPACITY_VOIDS (R301). -/
def capVoid (d : Dev) (block : Nat) : Dev :=
  if environmental d then voidAt (bump d 0x4C00 0x08) 0 block else d

/-- Put a voice into logical slot n, or into lane n. -/
def setSlot (d : Dev) (n : Nat) (v : Voice) : Dev := { d with alloc := { d.alloc with slots := mins d.alloc.slots n v } }
def setLaneV (d : Dev) (n : Nat) (v : Voice) : Dev := { d with alloc := { d.alloc with lanes := mins d.alloc.lanes n v } }

/-- Take the voice out of a slot or a lane. -/
def dropSlot (d : Dev) (n : Nat) : Dev := { d with alloc := { d.alloc with slots := mdel d.alloc.slots n } }
def dropLane (d : Dev) (n : Nat) : Dev := { d with alloc := { d.alloc with lanes := mdel d.alloc.lanes n } }

/-- A part's notes whose note-off has not been applied (04 R142). -/
def PartSt.unended (x : PartSt) : List NoteRec := x.held ++ x.silent

/-- Part p's state and its change. -/
def partOf (d : Dev) (p : Nat) : PartSt := mget PartSt.zero d.alloc.parts p
def modPart (d : Dev) (p : Nat) (f : PartSt → PartSt) : Dev :=
  { d with alloc := { d.alloc with parts := mmod PartSt.zero d.alloc.parts p f } }

/-- Slot voices of part p in ascending serial number: (slot, voice). -/
def slotsOfPart (d : Dev) (p : Nat) : List (Nat × Voice) :=
  sortBy (fun a b => decide (a.2.serial < b.2.serial)) (d.alloc.slots.filter (fun x => x.2.part = p))

/-- n_p: voices of part p in slots. -/
def nSlots (d : Dev) (p : Nat) : Nat := (d.alloc.slots.filter (fun x => x.2.part = p)).length

/-- Render the voice in a slot, or in a lane, up to sample s. -/
def renderSlot (s : Nat) (d : Dev) (n : Nat) : Dev :=
  match mfind d.alloc.slots n with
  | none => d
  | some v => let r := renderTo d n s v; setSlot r.1 n r.2
def renderLane (s : Nat) (d : Dev) (n : Nat) : Dev :=
  match mfind d.alloc.lanes n with
  | none => d
  | some v => let r := renderTo d (1152 + n) s v; setLaneV r.1 n r.2

/-- Render every voice that a part-level change at sample s reaches (11 R325). -/
def renderPart (d : Dev) (p s : Nat) : Dev :=
  let d := ((d.alloc.slots.filter (fun x => x.2.part = p)).map (·.1)).foldl (renderSlot s) d
  ((d.alloc.lanes.filter (fun x => x.2.part = p)).map (·.1)).foldl (renderLane s) d

/-- Render every voice up to sample s. -/
def renderAll (d : Dev) (s : Nat) : Dev :=
  let d := (d.alloc.slots.map (·.1)).foldl (renderSlot s) d
  (d.alloc.lanes.map (·.1)).foldl (renderLane s) d

/-- What events may change in a voice. -/
def evOf (v : Voice) : VoiceEv :=
  ⟨v.rel, v.relVel, v.sustained, v.deaf, v.press, v.pnc, v.npb, v.bkey, v.pitch, v.g0, v.gStart, v.gLen, v.envs.map (·.pendRel)⟩

/-- The voice as it stands before the events of sample s (10 R294). -/
def beforeEv (s : Nat) (v : Voice) : Voice := match v.prior with
  | none => v
  | some (a, e) =>
    if a ≠ s then v
    else { v with
      rel := e.rel, relVel := e.relVel, sustained := e.sustained, deaf := e.deaf, press := e.press, pnc := e.pnc
      npb := e.npb, bkey := e.bkey, pitch := e.pitch, g0 := e.g0, gStart := e.gStart, gLen := e.gLen
      envs := (List.zip v.envs e.pend).map (fun x => { x.1 with pendRel := x.2 }) }

/-- An event of sample s changes a voice: what stood before the sample's first event is kept. -/
def changeAt (s : Nat) (f : Voice → Voice) (v : Voice) : Voice :=
  if v.prior.any (fun x => x.1 == s) then f v else f { v with prior := some (s, evOf v) }

/-- An event changes the voice in slot n from sample s on. -/
def atSlot (s n : Nat) (f : Voice → Voice) (d : Dev) : Dev :=
  let d := renderSlot s d n
  match mfind d.alloc.slots n with
  | none => d
  | some v => setSlot d n (changeAt s f v)

/-! ### The view of window k (R281, R282) -/

/-- The latest window opened: none opens at the boundary of a stop, or after it (02 R46). -/
def latestWindow (d : Dev) : Nat := match d.media.stopM with
  | some m => m - 1
  | none => d.media.block

/-- The status word sealed for block k, once it has landed. -/
def statusAt (v : Voice) (k : Nat) : Option VStatus := v.status.find? (fun x => x.block = k)

/-- ENDED and e in the view of window k; a voice without a status counts as sounding at full level, one whose word was
discarded with its transaction too. DESIGN CHOICE: log entry 59. -/
def viewEnded (v : Voice) (k : Nat) : Bool := ((statusAt v k).map (·.ended)).getD false
def viewE (v : Voice) (k : Nat) : Int := ((statusAt v k).map (·.e)).getD (2 ^ 31 - 1)

/-- The streams of a voice close (12 R348). -/
def closeStreams (d : Dev) (serial : Nat) : Dev :=
  { d with tuber := { d.tuber with streams := d.tuber.streams.filter (fun s => s.serial != serial) } }

/-! ### Voices whose checkpoint record is poisoned (22 R652) -/

/-- A sum of the terms of position o's voices: word i of the vector of bus channel ch. -/
def vecWord (terms : AMap Int) (ch i : Nat) : Int :=
  wrapS 64 ((terms.filter (fun c => c.1 % 8192 = 64 * ch + i)).map (·.2)).sum

/-- The vector of a bus channel from the terms of a position. -/
def vecOf (d : Dev) (terms : AMap Int) (ch : Nat) : List Int := (rangeFrom 0 (blockLen d)).map (vecWord terms ch)

/-- The terms of a position's voices in a map of all. -/
def termsOf (m : AMap Int) (o : Nat) : AMap Int := m.filter (fun c => c.1 / 8192 / 2 ^ 64 = o)

/-- A transaction without the terms of a voice. -/
def dropTerms (d : Dev) (serial : Nat) (x : PodTxn) : PodTxn :=
  let l := x.terms.filter (fun c => c.1 / 8192 % 2 ^ 64 ≠ serial)
  if l = x.terms then x else { x with terms := l, adds := x.adds.map (fun a => (a.1, vecOf d l a.1)) }

/-- The voice of a slot, or of a lane, ends with no sample in any block not sealed. -/
def loseVoice (d : Dev) (v : Voice) : Dev :=
  closeStreams { d with alloc := { d.alloc with podTxns := d.alloc.podTxns.map (dropTerms d v.serial) } } v.serial

/-- A Pod that loads the checkpoint records of the positions that `at'` names for a block: a voice whose record is
poisoned ends, and the block is voided. DEDUCED: log entry 57. -/
def loseBad (d : Dev) (at' : Nat → Bool) (block : Nat) : Dev :=
  let bad (spot : Nat) : Bool := at' (spotPos spot) && poisonedWithin d (checkpointAt spot) 1024
  let ss := d.alloc.slots.filter (fun x => bad x.1)
  let ls := d.alloc.lanes.filter (fun x => bad (1152 + x.1))
  if ss.isEmpty && ls.isEmpty then d
  else
    let d := ss.foldl (fun d x => loseVoice (dropSlot d x.1) x.2) d
    let d := ls.foldl (fun d x => loseVoice (dropLane d x.1) x.2) d
    voidAt d 0 block

/-- The ended voice of slot n stays to be read until another takes the slot (R282, R305). DEDUCED: log entry 66. -/
def putEnded (d : Dev) (n : Nat) (v : Voice) : Dev := { d with alloc := { d.alloc with ended := mins d.alloc.ended n v } }

/-- A voice takes slot n. -/
def takeSlot (d : Dev) (n : Nat) (v : Voice) : Dev :=
  setSlot { d with alloc := { d.alloc with ended := mdel d.alloc.ended n } } n v

/-- At window k: slots and lanes free for block k + 2 give up their voices (R282); f is its first sample. -/
def freeEnded (d : Dev) (k f : Nat) : Dev :=
  let d := d.alloc.slots.foldl (fun d x =>
    if viewEnded x.2 k then putEnded (closeStreams (dropSlot d x.1) x.2.serial) x.1 x.2 else d) d
  d.alloc.lanes.foldl (fun d x =>
    let past := match x.2.lane with
      | some (s, n) => decide (s + n ≤ f)
      | none => false
    if past || viewEnded x.2 k then closeStreams (dropLane d x.1) x.2.serial else d) d

/-- Lowest free lane of position o. -/
def freeLane (d : Dev) (o : Nat) : Option Nat :=
  (rangeFrom (8 * o) 8).find? (fun n => (mfind d.alloc.lanes n).isNone)

/-- Free slots of position o, ascending. -/
def freeSlots (d : Dev) (o : Nat) : List Nat :=
  (rangeFrom (32 * o) (slotCount d)).filter (fun n => (mfind d.alloc.slots n).isNone)

/-! ### Reservations and protection (R286) -/

/-- Enabled parts with a reservation, in descending PRIORITY, then ascending number. -/
def reservedParts (d : Dev) : List Nat :=
  let ps := (rangeFrom 0 256).filter (fun q => partOn d q && pf d q 0x0E != 0)
  sortBy (fun a b => decide (pf d b 0x0F < pf d a 0x0F)) ps

/-- eff_q of every part with a grant: (part, eff). -/
def grants (d : Dev) : List (Nat × Nat) :=
  let total := (positionsIn d).length * slotCount d
  ((reservedParts d).foldl (fun (a : List (Nat × Nat) × Nat) q =>
    let e := min (pf d q 0x0E) a.2
    (a.1 ++ [(q, e)], a.2 - e)) ([], total)).1

/-- eff_q. -/
def effOf (d : Dev) (q : Nat) : Nat := (((grants d).find? (fun x => x.1 = q)).map (·.2)).getD 0

/-- D_p. -/
def deficit (d : Dev) (p : Nat) : Nat :=
  (((grants d).filter (fun x => x.1 ≠ p)).map (fun x => x.2 - nSlots d x.1)).sum

/-- A voice of part q is protected against others. -/
def protectedPart (d : Dev) (q : Nat) : Bool := nSlots d q ≤ effOf d q && 0 < effOf d q

/-! ### Placing, candidates, steals (R285-R291) -/

/-- Positions where a cost c fits with a free slot, by lowest SC + LC, then lowest number (R285). -/
def placeAt (d : Dev) (c : Nat) : Option Nat :=
  let os := (positionsIn d).filter (fun o => !(freeSlots d o).isEmpty &&
    slotCharge d o + c ≤ slotLimit d && slotCharge d o + laneCharge d o + c ≤ budget d)
  match bestBy (fun a b => decide (slotCharge d a + laneCharge d a < slotCharge d b + laneCharge d b)) os with
  | some o => (freeSlots d o).head?
  | none => none

/-- `place(p, c)` of R285. -/
def place (d : Dev) (p c : Nat) : Option Nat :=
  let free := ((positionsIn d).map (fun o => (freeSlots d o).length)).sum
  if deficit d p < free then placeAt d c else none

/-- `steal_ok(v, c)` of R290 for the voice in slot n. -/
def stealOk (d : Dev) (n c : Nat) : Bool :=
  let o := n / 32
  match mfind d.alloc.slots n with
  | none => false
  | some v => (freeLane d o).isSome && slotCharge d o - vCost d v + c ≤ slotLimit d &&
    slotCharge d o + laneCharge d o + c ≤ budget d

/-- Order of R289 by the requester's policy. -/
def stealBefore (k policy s : Nat) (a b : Nat × Voice) : Bool :=
  let rel (v : Voice) : Bool := match v.rel with
    | some r => r ≤ s
    | none => false
  if policy = 1 then decide (viewE a.2 k < viewE b.2 k) || (viewE a.2 k == viewE b.2 k && a.2.serial < b.2.serial)
  else if policy = 2 then
    (rel a.2 && !rel b.2) || (rel a.2 == rel b.2 && a.2.serial < b.2.serial)
  else a.2.serial < b.2.serial

/-- Slot voices that were not started in block k + 2 (R288). -/
def stealable (d : Dev) (f : Nat) : List (Nat × Voice) := d.alloc.slots.filter (fun x => x.2.start < f)

/-- own_candidates(p) in the order of R289; f is the first sample of block k + 2. -/
def ownCandidates (d : Dev) (k f p s : Nat) : List Nat :=
  (sortBy (stealBefore k (pf d p 0x10) s) ((stealable d f).filter (fun x => x.2.part = p))).map (·.1)

/-- candidates(p) of R288 in order. -/
def candidates (d : Dev) (k f p s : Nat) : List Nat :=
  let l := stealable d f
  let pol := stealBefore k (pf d p 0x10) s
  let pri (x : Nat × Voice) : Nat := pf d x.2.part 0x0F
  let mine := pf d p 0x0F
  let shielded (x : Nat × Voice) : Bool := x.2.part != p && protectedPart d x.2.part
  let t1 := sortBy (fun a b => decide (pri a < pri b) || (pri a == pri b && pol a b))
    (l.filter (fun x => x.2.part != p && decide (pri x < mine) && !shielded x))
  let t2 := sortBy pol (l.filter (fun x => x.2.part == p || (pri x == mine && !shielded x)))
  let used := (t1 ++ t2).map (·.1)
  let t3 := if nSlots d p < effOf d p then
      sortBy pol (l.filter (fun x => x.2.part != p && decide (effOf d x.2.part < nSlots d x.2.part) && !used.contains x.1))
    else []
  (t1 ++ t2 ++ t3).map (·.1)

/-- The voice in slot n enters lane m of a position at sample s (R296), as it stood at sample s − 1 (R294). -/
def enterLane (d : Dev) (n m s : Nat) : Dev :=
  let d := renderSlot s d n
  match mfind d.alloc.slots n with
  | none => d
  | some v => setLaneV (dropSlot d n) m { beforeEv s v with lane := some (s, rs d 0x4C10 0x01), wait := none }

/-- `steal(v, S)` of R291. -/
def steal (d : Dev) (n s : Nat) : Dev :=
  match freeLane d (n / 32) with
  | none => d
  | some m => bump (enterLane d n m s) 0x4C00 0x04

/-! ### Zones and streams at the note-on -/

/-- STATE of a region (12 R362). -/
def regionState (d : Dev) (r : Nat) : Nat := mget 0 d.tuber.region r

/-- Regions that a version's enabled parts name through their programs (12 R345). -/
def namedRegions (v : Version) : List Nat :=
  let progs := ((rangeFrom 0 256).filter (fun p => vGet v (0x3000 + p) 0x01 = 1)).map (fun p => vGet v (0x3000 + p) 0x02)
  let rec' := progs.eraseDups.map (recDiff v)
  rec'.flatMap (fun m => (rangeFrom 0 4).flatMap (fun x =>
    if rB m (oscAt x) = 4 then (rangeFrom 0 (rB m (oscAt x + 52))).map (fun z => rU m (zoneAt x z + 4) 2) else []))

/-- A region is armed in a version (12 R345). -/
def armedIn (v : Version) (r : Nat) : Bool :=
  vGet v 0x6801 0x01 r = 1 && (vGet v 0x6801 0x08 r = 1 || (namedRegions v).contains r)

/-- A region is valid (12 R343). -/
def regionValid (d : Dev) (r : Nat) : Bool :=
  rs d 0x6801 0x01 r = 1 && regionState d r = 1 && (!armedIn d.ver.active r || (mfind d.tuber.heads r).isSome)

/-- First zone of oscillator x that takes the key and velocity (06 R188). -/
def zoneFor (lat : AMap Byte) (x key vel : Nat) : Option Nat :=
  (rangeFrom 0 (oU lat x 52 1)).find? (fun z =>
    rB lat (zoneAt x z) ≤ key && key ≤ rB lat (zoneAt x z + 1) &&
    rB lat (zoneAt x z + 2) ≤ vel && vel ≤ rB lat (zoneAt x z + 3))

/-- The zone's region entry as active. -/
def zoneEntry (d : Dev) (lat : AMap Byte) (x z : Nat) : Zone :=
  let r := rU lat (zoneAt x z + 4) 2
  ⟨r, rI32 lat (zoneAt x z + 6), rU lat (zoneAt x z + 10) 4, rs d 0x6801 0x02 r, rs d 0x6801 0x03 r, rs d 0x6801 0x04 r,
    rs d 0x6801 0x05 r, rs d 0x6801 0x06 r⟩

/-- The zone of oscillator x with its stream opened (12 R348). Each oscillator whose region is not valid counts in NO_REGION_NOTES (12
R343). DESIGN CHOICE: log entry 70. -/
def openZone (lat : AMap Byte) (serial key vel : Nat) (a : Dev × List (Option Zone)) (x : Nat) :
    Dev × List (Option Zone) :=
  let d := a.1
  if oU lat x 0 1 ≠ 4 then (d, a.2 ++ [none])
  else match zoneFor lat x key vel with
    | none => (d, a.2 ++ [none])
    | some z =>
      let e := zoneEntry d lat x z
      if regionValid d e.region then
        let d := if d.tuber.streams.length < rs d 0x6820 0x01 then
            { d with tuber := { d.tuber with streams := d.tuber.streams ++ [⟨serial, x, e, [], [], false⟩] } }
          else bump d 0x6820 0x0C
        (d, a.2 ++ [some e])
      else (bump d 0x6820 0x0D, a.2 ++ [none])

/-! ### Starting a voice -/

/-- The glide of a note (09 R268): G0, start, N. -/
abbrev Glide := Int × Nat × Nat

/-- Initial per-note values of a note on a member channel (09 R273). -/
def mpeValue (m : AMap Nat) (dflt key : Nat) : Nat := mget dflt m key

/-- A note starts in slot n at sample s (R283, R291, 06 R172, 08 R228); a poisoned word of an image header voids its block
(22 R652). -/
def startVoice (d : Dev) (p s n : Nat) (x : NoteRec) (g : Glide) : Dev :=
  let last := oGet d 0x4C00 0x0B
  let serial := if last = 2 ^ 32 - 1 then 1 else last + 1
  let d := bump (oSet d 0x4C00 0x0B serial) 0x4C00 0x03
  let ps := partOf d p
  let lat := podRecord d ps.program
  let z := (rangeFrom 0 4).foldl (openZone lat serial x.key (vel7 x.vel)) (d, [])
  let d := z.1
  let bad := (rangeFrom 0 4).any (fun k => oU lat k 0 1 == 3 && wtBad d (oU lat k 38 1))
  let d := if bad then voidAt d 0 (s / blockLen d) else d
  let mpe := pf d p 0x18 ≠ 0
  let pnc (k : Nat) : Nat := if mpe then mpeValue ps.chCc 0 (x.chan * 256 + pf d p (0x1A + k) % 256) else 0
  takeSlot d n
    { part := p, program := ps.program, serial := serial, slot := n, sounds := x.order, chan := x.chan, note := x.note, key := x.key, bkey := x.key
      vel := x.vel, src := x.src, pitch := x.pitch, g0 := g.1, gStart := g.2.1, gLen := g.2.2, start := s
      rel := none, relVel := 0, sustained := false, deaf := false
      press := if mpe then mpeValue ps.chPress 0 x.chan else 0
      pnc := (rangeFrom 0 4).map pnc
      npb := if mpe then mpeValue ps.chBend (2 ^ 31) x.chan else 2 ^ 31
      pos := s, envs := List.replicate 6 Env.fresh
      lfos := (rangeFrom 0 4).map (fun l => Lfo.fresh d lat lat l s serial)
      oscs := (rangeFrom 0 4).map (fun k => Osc.fresh d lat k serial (nth none z.2 k))
      held := [], xp1 := 0, xp2 := 0, dec1 := [], dec2 := [], f1 := Filt.zero, f2 := Filt.zero, lat := lat
      lane := none, wait := none, prior := none, word := none, status := [] }

/-- Outcome of a note-on (R287). -/
inductive Placed | started | refused | deferred (ownLimit : Bool)
deriving DecidableEq, Repr

/-- Steal the first candidate that passes and start there; `cand` tells a steal from candidates(p) (R301). -/
def stealFirst (d : Dev) (p s c block : Nat) (x : NoteRec) (g : Glide) (cand : Bool) (l : List Nat) : Option Dev :=
  match l.find? (fun n => stealOk d n c) with
  | none => none
  | some n =>
    let d := steal d n s
    let d := if cand then capVoid d block else d
    some (startVoice d p s n x g)

/-- `note_on(p, S, c)` of R287 at window k. -/
def noteOnPlace (d : Dev) (k f p s : Nat) (x : NoteRec) (g : Glide) : Dev × Placed :=
  let c := costOf d.ver.active (partOf d p).program
  let same := ((slotsOfPart d p).filter (fun y => y.2.chan = x.chan && y.2.note = x.note)).map (·.1)
  let again := if pf d p 0x10 = 3 then stealFirst d p s c (k + 2) x g false same else none
  match again with
  | some d => (d, .started)
  | none =>
    if pf d p 0x0D ≤ nSlots d p then
      let l := ownCandidates d k f p s
      if l.isEmpty then (d, .refused)
      else match stealFirst d p s c (k + 2) x g false l with
        | some d => (d, .started)
        | none => (d, .deferred true)
    else match place d p c with
      | some n => (startVoice d p s n x g, .started)
      | none =>
        let l := candidates d k f p s
        if l.isEmpty then (d, .refused)
        else match stealFirst d p s c (k + 2) x g true l with
          | some d => (d, .started)
          | none => (d, .deferred false)

/-! ### Releases -/

/-- A voice receives its release at sample s (08 R235, 09 R271). -/
def releaseVoice (s : Nat) (v : Voice) : Voice :=
  { v with rel := some s, sustained := false, envs := v.envs.map (fun e => { e with pendRel := true }) }

/-- The sustain pedal of part p is down (09 R271). -/
def pedalDown (d : Dev) (p : Nat) : Bool := pf d p 0x16 = 1 && 0x80000000 ≤ mget 0 (partOf d p).cc 64

/-- The voice event queue of slot n (16 R488). -/
def voiceQueue (d : Dev) (n : Nat) : Nat := 512 + slotCount d * (n / 32) + n % 32

/-- An item for the voice in slot n goes through its voice event queue (11 R324); one that finds the queue full waits for room
(16 R493), and its Pod reads it in its window all the same. It carries no LATE or UNTIMED mark on. DESIGN CHOICE: log entries 59, 66. -/
def deliver (d : Dev) (n : Nat) (e : EvItem) : Dev :=
  let q := voiceQueue d n
  let v := evPack e.six e.cls 0 e.src e.u0 e.u1
  if 0 < qRoom d q then qPush d q v
  else fullWait { d with alloc := { d.alloc with voiceWaits := d.alloc.voiceWaits ++ [(q, v)] } } q

/-- Items that wait for room in voice event queue q, oldest first. -/
def waitingFor (d : Dev) (q : Nat) : List (BitVec 128) := (d.alloc.voiceWaits.filter (fun x => x.1 = q)).map (·.2)

/-- A Pod's seal retires the n items that it has read of voice event queue q (03 R76): those that wait enter as room comes. -/
def voiceRetire (d : Dev) (q n : Nat) : Dev :=
  let wait := waitingFor d q
  let d := qRetire (qPushAll d q wait) q n
  let keep := (queueOf d q).items
  let d := modQueue d q (fun x => { x with items := keep.take (qDepth d q) })
  { d with alloc := { d.alloc with
    voiceWaits := d.alloc.voiceWaits.filter (fun x => x.1 ≠ q) ++ (keep.drop (qDepth d q)).map (fun v => (q, v)) } }

/-- A note-off of part p reaches the voice in slot n: release, or deferral by the pedal. -/
def noteOffSlot (d : Dev) (e : EvItem) (n vel : Nat) : Dev :=
  let p := e.part
  let s := e.six
  let d := deliver d n e
  if pedalDown d p then atSlot s n (fun v => { v with sustained := true, relVel := vel }) d
  else atSlot s n (fun v => releaseVoice s { v with relVel := vel }) d

/-- Every sustained voice of the part receives its release at sample s. -/
def pedalUp (d : Dev) (p s : Nat) : Dev :=
  ((slotsOfPart d p).filter (fun x => x.2.sustained && x.2.wait.isNone)).foldl (fun d x => atSlot s x.1 (releaseVoice s) d) d

/-! ### Capacity reductions (R298-R300) -/

/-- The next voice of a list in reduction order (R300), with the slots already chosen left out of n_q. -/
def reductionNext (d : Dev) (chosen : List Nat) (l : List (Nat × Voice)) : Option (Nat × Voice) :=
  let n (q : Nat) : Nat := (d.alloc.slots.filter (fun x => x.2.part = q && !chosen.contains x.1)).length
  let prot (x : Nat × Voice) : Bool := n x.2.part ≤ effOf d x.2.part && 0 < effOf d x.2.part
  let key (x : Nat × Voice) : Nat :=
    ((pf d x.2.part 0x0F * 2 + b2n (prot x)) * 2 + b2n x.2.rel.isNone) * 2 ^ 32 + x.2.serial
  bestBy (fun a b => decide (key a < key b)) (l.filter (fun x => !chosen.contains x.1))

/-- A list in reduction order, protection re-evaluated after each choice. -/
def reductionOrder (d : Dev) (l : List (Nat × Voice)) : Nat → List Nat → List (Nat × Voice)
  | 0, _ => []
  | n + 1, chosen => match reductionNext d chosen l with
    | none => []
    | some x => x :: reductionOrder d l n (chosen ++ [x.1])

/-- Step 1 of R299: place the displaced slot voices of a list; the answer lists those left over, in the opposite order. -/
def placeDisplaced (d : Dev) (f : Nat) (l : List (Nat × Voice)) : Dev × List (Nat × Voice) :=
  l.foldl (fun (a : Dev × List (Nat × Voice)) x =>
    let d := renderSlot f a.1 x.1
    let v := (mfind d.alloc.slots x.1).getD x.2
    match placeAt d (vCost d v) with
    | some n => (takeSlot (dropSlot d x.1) n v, a.2)
    | none => (dropSlot d x.1, (x.1, v) :: a.2)) (d, [])

/-- The victims of a position while its SC, less theirs, exceeds LIMIT (step 2), after those chosen so far. -/
def victims (d : Dev) (o : Nat) : Nat → List Nat → List Nat
  | 0, chosen => chosen
  | n + 1, chosen =>
    let left := (d.alloc.slots.filter (fun x => x.1 / 32 = o && !chosen.contains x.1))
    if slotLimit d < (left.map (fun x => vCost d x.2)).sum then
      match reductionNext d chosen left with
      | some x => victims d o n (chosen ++ [x.1])
      | none => chosen
    else chosen

/-- Step 3: a victim takes a free lane of its position at sample f, or waits in its slot. -/
def victimMove (k f : Nat) (d : Dev) (n : Nat) : Dev :=
  match freeLane d (n / 32) with
  | some m => capVoid (bump (enterLane d n m f) 0x4C00 0x05) (k + 2)
  | none => d

/-- Step 4: a voice takes the lowest position with a free lane and room, or ends. -/
def laneElsewhere (d : Dev) (v : Voice) : Dev :=
  let c := vCost d v
  match (positionsIn d).find? (fun o => (freeLane d o).isSome && slotCharge d o + laneCharge d o + c ≤ budget d) with
  | some o => match freeLane d o with
    | some m => setLaneV d m v
    | none => d
  | none => closeStreams d v.serial

/-- The records that a boundary writes together are written in ascending KIND, then UNIT (05 R168), those of lost Pods with the
voices lost of their position (22 R660). DEDUCED: log entry 35. -/
def fillLost (d : Dev) (lost : List (Nat × Voice)) : Dev :=
  let cnt (o : Nat) : Nat := (lost.filter (fun x => x.1 / 32 = o)).length
  let l := sortBy (fun a b => decide (a.draft.kind * 256 + a.draft.unit < b.draft.kind * 256 + b.draft.unit)) d.alloc.lostRecs
  l.foldl (fun d r => writeFault d { r.draft with lost := (r.position.map cnt).getD 0 })
    { d with alloc := { d.alloc with lostRecs := [] } }

/-- Positions lost since the latest window. -/
def lostPositions (d : Dev) : List Nat := d.alloc.lostRecs.filterMap (·.position)

/-- The positions in service without those of a list. -/
def serveBut (d : Dev) (l : List Nat) : Dev :=
  { d with alloc := { d.alloc with serve := l.foldl (fun s o => setNth s o none) d.alloc.serve } }

/-- The moves of R299 for the positions in service; f is the first sample of block k + 2. They load the checkpoint
records of the positions lost (22 R660). Answers the displaced voices that no slot took. -/
def reduceMoves (d : Dev) (k f : Nat) : Dev × List (Nat × Voice) :=
  let d := loseBad d (fun o => !posIn d o) (k + 2)
  let gone := d.alloc.slots.filter (fun x => !posIn d (x.1 / 32))
  let r := placeDisplaced d f (reductionOrder d gone gone.length []).reverse
  let d := r.1
  let d := ((positionsIn d).foldl (fun (a : Dev × List Nat) o =>
    let all := victims a.1 o 32 a.2
    ((all.drop a.2.length).foldl (victimMove k f) a.1, all)) (d, [])).1
  let fl := rs d 0x4C10 0x01
  let d := r.2.foldl (fun d x => laneElsewhere d { x.2 with lane := some (f, fl), wait := none }) d
  let lanes := sortBy (fun a b => decide (a.2.serial < b.2.serial)) (d.alloc.lanes.filter (fun x => !posIn d (x.1 / 8)))
  let d := lanes.foldl (fun d x =>
    let d := renderLane f d x.1
    let v := (mfind d.alloc.lanes x.1).getD x.2
    laneElsewhere (dropLane d x.1) v) d
  (if r.2.isEmpty then d else bump d 0x4C10 0x07 r.2.length, r.2)

/-- The reduction procedure of R299 at window k. A position that was lost and is restored at this very boundary is empty and
takes none of the voices displaced (22 R667). DEDUCED: log entry 33. -/
def reduce (d : Dev) (k f : Nat) : Dev :=
  let r := reduceMoves (serveBut d (lostPositions d)) k f
  fillLost { r.1 with alloc := { r.1.alloc with serve := d.alloc.serve } } r.2

/-! ### Voices that wait for a lane (R284 step 2, R303, 11 R313) -/

/-- The voice in slot n leaves for a lane of its own position at sample s, or waits from there on. -/
def leaveOrWait (s : Nat) (d : Dev) (n : Nat) : Dev :=
  match freeLane d (n / 32) with
  | some m => enterLane d n m s
  | none => atSlot s n (fun v => { v with wait := some (v.wait.getD s) }) d

/-- Voices still waiting, in the order in which they began to wait, then in ascending serial number. -/
def waitingVoices (d : Dev) : List Nat :=
  let key (x : Nat × Voice) : Nat := (x.2.wait.getD 0) * 2 ^ 32 + x.2.serial
  (sortBy (fun a b => decide (key a < key b)) (d.alloc.slots.filter (fun x => x.2.wait.isSome))).map (·.1)

end Sys2Proof.Machine
end

