-- ==== Sys2Proof/Machine/Parts.lean ====
section
/-!
DEFINITION. Sys2Proof/Machine/Parts.lean: what an event does to its part and its voices at its sample (09 R265-R274,
10 R287-R293, 11 R312, R313, R324), and the allocator's work in a window (10 R284, 11 R323).
-/
namespace Sys2Proof.Machine

/-- The window at hand: its number and the first sample of the block it computes. -/
structure Wnd where
  k : Nat
  f : Nat
deriving DecidableEq, Repr

/-! ### Notes of a part -/

/-- Same identity (09 R266). -/
def NoteRec.sameId (x : NoteRec) (c n : Nat) : Bool := x.chan = c && x.note = n

/-- The sounding entry of a note stack by MONO_PRIORITY (09 R270); the stack is in order of arrival. -/
def soundingOf (prio : Nat) (l : List NoteRec) : Option NoteRec :=
  l.foldl (fun (a : Option NoteRec) x => match a with
    | none => some x
    | some y =>
      if prio = 0 ∨ x.key = y.key ∨ (prio = 1 ∧ x.key < y.key) ∨ (prio = 2 ∧ y.key < x.key) then some x else some y) none

/-- The note-off of the note with number i is applied: it is held no longer and leaves the note stack (04 R142, 08 R242, 09 R270). -/
def closeNote (d : Dev) (p i : Nat) : Dev :=
  let others (l : List NoteRec) : List NoteRec := l.filter (fun x => x.order != i)
  modPart d p (fun ps => { ps with held := others ps.held, silent := others ps.silent, stack := others ps.stack })

/-- A note-off of an identity closes the note with number i where that has the identity, else the oldest open note that has.
DEDUCED: log entry 66. -/
def closeOff (d : Dev) (p c n i : Nat) : Dev :=
  let l := (partOf d p).unended.filter (fun x => x.sameId c n)
  match if l.any (fun x => x.order == i) then some i else (bestBy (fun a b => decide (a.order < b.order)) l).map (·.order) with
  | some i => closeNote d p i
  | none => d

/-- The glide of a note-on or legato transition at sample s, with the part's new record (09 R268). -/
def glideOn (d : Dev) (p s : Nat) (x : NoteRec) : Glide × Dev :=
  let ps := partOf d p
  let base := baseOf d p x.key x.pitch
  let n := pf d p 0x14
  let mode := pf d p 0x13
  let g0 : Int := match ps.porta with
    | some (b, s0, g, n0) =>
      if 0 < n ∧ (mode = 1 ∨ (mode = 2 ∧ d.alloc.heldWas.contains p)) then sat (b + glideAt g s0 n0 s - base) 32 else 0
    | none => 0
  ((g0, s, n), modPart d p (fun ps => { ps with porta := some (base, s, g0, n) }))

/-- Count a refusal (10 R293, R301). -/
def refuseNote (d : Dev) (block : Nat) : Dev := capVoid (bump d 0x4C00 0x07) block

/-- Part p's LFOs restart at sample s at a note-on, which found no note held or some (08 R242). -/
def syncPart (d : Dev) (p s : Nat) (sync : Option Bool) : Dev := match sync with
  | some alone => modPart d p (plfoNoteOn d p s (!alone))
  | none => d

/-- Defer a note-on: it waits for block k + 2 (10 R292), and its part-LFO restart with it. -/
def deferNote (d : Dev) (w : Wnd) (p key : Nat) (x : NoteRec) (g : Glide) (sync : Option Bool) : Dev :=
  let d := capVoid (bump d 0x4C00 0x06) (w.k + 2)
  modPart d p (fun ps => { ps with deferred := ps.deferred ++ [⟨key, w.k, x, g.1, g.2.1, g.2.2, sync⟩] })

/-- Place a note under R287 and book its outcome. -/
def placeNote (d : Dev) (w : Wnd) (p s key : Nat) (x : NoteRec) (g : Glide) (sync : Option Bool) : Dev :=
  match noteOnPlace d w.k w.f p s x g with
  | (d, .started) => syncPart d p s sync
  | (d, .refused) => syncPart (refuseNote d (w.k + 2)) p s sync
  | (d, .deferred _) => deferNote d w p key x g sync

/-- The part's own voice in a slot: the latest started. Where a switch turns a part of several voices into a mono or legato one, the
others stay. DESIGN CHOICE: log entry 66. -/
def ownVoice (d : Dev) (p : Nat) : Option (Nat × Voice) := (slotsOfPart d p).getLast?

/-- A new voice of a mono or legato part (09 R270): it takes the slot of the part's voice. -/
def monoVoice (d : Dev) (w : Wnd) (p s key : Nat) (x : NoteRec) (g : Glide) (sync : Option Bool) : Dev :=
  match ownVoice d p with
  | none => placeNote d w p s key x g sync
  | some (n, _) =>
    if stealOk d n (costOf d.ver.active (partOf d p).program) then syncPart (startVoice (steal d n s) p s n x g) p s sync
    else deferNote d w p key x g sync

/-- A legato transition to entry x at sample s (09 R270). DEDUCED: log entry 41. -/
def legatoTo (d : Dev) (w : Wnd) (p s key : Nat) (x : NoteRec) (sync : Option Bool) : Dev :=
  let r := glideOn d p s x
  let g := r.1
  let d := r.2
  if (partOf d p).deferred ≠ [] then
    syncPart (modPart d p (fun ps => { ps with
      deferred := ps.deferred.map (fun y => { y with note := x, g0 := g.1, gStart := g.2.1, gLen := g.2.2 }) })) p s sync
  else match (slotsOfPart d p).filter (fun y => y.2.wait.isNone) with
    | [] => monoVoice d w p s key x g sync
    | l => match l.getLast? with
      | some (n, _) => syncPart (atSlot s n (fun v => { v with sounds := x.order, bkey := x.key, pitch := x.pitch
                                                               g0 := g.1, gStart := g.2.1, gLen := g.2.2 }) d) p s sync
      | none => d

/-- A note-on that the part takes at sample s. Notes held from poly mode are not in the note stack. A 17th one removes the oldest entry of the stack; where that one sounds and the new
note is not chosen, its voice sounds on. DEDUCED: log entry 41. DESIGN CHOICE: log entry 66. -/
def partNoteOn (d : Dev) (w : Wnd) (p s key : Nat) (x : NoteRec) : Dev :=
  let d := renderPart d p s
  let ps := partOf d p
  let sync := some ps.held.isEmpty
  let x := { x with order := d.alloc.noteCount }
  let d := { d with alloc := { d.alloc with noteCount := d.alloc.noteCount + 1 } }
  let d := modPart d p (fun ps => { ps with held := ps.held ++ [x] })
  if pf d p 0x11 = 0 then
    let r := glideOn d p s x
    placeNote r.2 w p s key x r.1 sync
  else
    let stack := ps.stack ++ [x]
    let stack := if 16 < stack.length then stack.drop 1 else stack
    let d := modPart d p (fun ps => { ps with stack := stack })
    if ps.stack = [] then
      let r := glideOn d p s x
      monoVoice r.2 w p s key x r.1 sync
    else if soundingOf (pf d p 0x12) stack = some x then
      if pf d p 0x11 = 1 then
        let r := glideOn d p s x
        monoVoice r.2 w p s key x r.1 sync
      else legatoTo d w p s key x sync
    else syncPart d p s sync

/-- Cancel the oldest deferral of an identity (09 R266, 10 R292); it restarts no part LFO. DESIGN CHOICE: log entry 66. -/
def cancelDeferral (d : Dev) (p c n : Nat) : Dev :=
  let ps := partOf d p
  match ps.deferred.find? (fun x => x.note.sameId c n) with
  | none => d
  | some x => bump (modPart d p (fun ps => { ps with deferred := ps.deferred.erase x })) 0x4C00 0x07

/-- Slot voices that a note-off of an identity may release. -/
def offTargets (d : Dev) (p c n : Nat) : List (Nat × Voice) :=
  (slotsOfPart d p).filter (fun x =>
    x.2.chan = c && x.2.note = n && x.2.rel.isNone && !x.2.sustained && x.2.wait.isNone)

/-- A note-off under R266: it ends the note of the voice that it releases or of the deferral that it cancels, or else the oldest of
its identity. -/
def polyOff (d : Dev) (e : EvItem) (c n vel : Nat) : Dev :=
  match offTargets d e.part c n with
  | (m, v) :: _ => noteOffSlot (closeOff d e.part c n v.sounds) e m vel
  | [] => match (partOf d e.part).deferred.find? (fun x => x.note.sameId c n) with
    | some x => cancelDeferral (closeOff d e.part c n x.note.order) e.part c n
    | none => closeOff d e.part c n 0

/-- A note-off cancels a deferral of its identity when no slot voice of that identity can take it (10 R292). -/
def cancelUnlessOff (d : Dev) (p c n : Nat) : Dev := if (offTargets d p c n).isEmpty then cancelDeferral d p c n else d

/-- The release of a mono or legato part's last note, number i (09 R270, R271): of the voice that sounds it, or where none does, of the
latest voice whose own note is no longer held. DEDUCED: log entry 41. -/
def monoRelease (d : Dev) (e : EvItem) (c n vel i : Nat) : Dev :=
  let d := cancelUnlessOff d e.part c n
  let l := (slotsOfPart d e.part).filter (fun x => x.2.rel.isNone && !x.2.sustained && x.2.wait.isNone)
  let idle := l.filter (fun x => (partOf d e.part).unended.all (fun y => y.order != x.2.sounds))
  match l.find? (fun x => x.2.sounds == i) <|> idle.getLast? with
  | some (m, _) => noteOffSlot d e m vel
  | none => d

/-- A note-off that reaches its part at its sample (09 R266, R270). In legato mode a deferred note-on stands for the
sounding note. A new voice for the next entry of the stack takes a glide as a note-on does. The stack holds held notes alone,
whatever VOICE_MODE is now. A note that the stack does not hold, one that a 17th note-on removed or one of poly mode, is released
under R266 by the identity of its voice, which a legato transition keeps. DEDUCED: log entry 41. DESIGN CHOICE: log entry 66. -/
def partNoteOff (d : Dev) (w : Wnd) (e : EvItem) (key : Nat) : Dev :=
  let p := e.part
  let s := e.six
  let c := umpChannel e.u0
  let n := umpB2 e.u0 % 128
  let vel := umpVel e.u0 e.u1
  let ps := partOf d p
  if pf d p 0x11 = 0 then polyOff d e c n vel
  else match ps.stack.find? (fun x => x.sameId c n) with
    | none => polyOff d e c n vel
    | some x =>
      let prio := pf d p 0x12
      let was := soundingOf prio ps.stack
      let d := closeNote d p x.order
      let stack := (partOf d p).stack
      let d := if pf d p 0x11 = 1 then cancelUnlessOff d p c n else d
      if was ≠ some x then d
      else match soundingOf prio stack with
        | none => monoRelease d e c n vel x.order
        | some y =>
          if pf d p 0x11 = 1 then
            let r := glideOn d p s y
            monoVoice r.2 w p s key y r.1 none
          else legatoTo d w p s key y none

/-! ### Controllers (11 R313, 09 R271-R273) -/

/-- Voices started on member channel c that take events. DEDUCED: log entry 41. -/
def memberVoices (d : Dev) (p c : Nat) : List Nat :=
  ((slotsOfPart d p).filter (fun x => x.2.chan = c && x.2.wait.isNone)).map (·.1)

/-- Change the voices of a list from sample s on. -/
def onSlots (d : Dev) (s : Nat) (l : List Nat) (f : Voice → Voice) : Dev := l.foldl (fun d n => atSlot s n f d) d

/-- All sound off (controller 120). Its notes are held no longer (08 R242); no note-off has ended them (04 R142). -/
def allSoundOff (d : Dev) (p s : Nat) : Dev :=
  let d := ((slotsOfPart d p).map (·.1)).foldl (leaveOrWait s) d
  let d := onSlots d s ((slotsOfPart d p).map (·.1)) (fun v => { v with sustained := false })
  modPart d p (fun ps => { ps with stack := [], held := [], silent := ps.unended })

/-- Per-note values return to 0, 0 and the centre. -/
def resetPerNote (v : Voice) : Voice := { v with press := 0, pnc := [0, 0, 0, 0], npb := 2 ^ 31 }

/-- Reset all controllers (controller 121). -/
def resetControllers (d : Dev) (p s : Nat) : Dev :=
  let d := renderPart d p s
  let was := pedalDown d p
  let d := modPart d p (fun ps => { ps with
    bend := 2 ^ 31, press := 0, cc := [1, 64, 65, 66, 67].foldl (fun m c => mdel m c) ps.cc })
  let d := if was && !pedalDown d p then pedalUp d p s else d
  onSlots d s (((slotsOfPart d p).filter (fun x => x.2.wait.isNone)).map (·.1)) resetPerNote

/-- The item of a note-off that Root generates for the voice of a note (R309). -/
def rootNoteOff (e : EvItem) (v : Voice) : EvItem :=
  { e with cls := 1, src := 0x0F00, u0 := 0x40800000 + v.chan * 65536 + v.note * 256, u1 := 32768 * 65536 }

/-- All notes off (controller 123): each note-off ends the note that its voice sounds. A note that none reaches is still held (08
R242). DEDUCED: log entry 66. -/
def allNotesOff (d : Dev) (e : EvItem) : Dev :=
  let p := e.part
  let l := (slotsOfPart d p).filter (fun x => x.2.rel.isNone && x.2.wait.isNone)
  let d := l.foldl (fun d x => noteOffSlot d (rootNoteOff e x.2) x.1 32768) d
  modPart (l.foldl (fun d x => closeNote d p x.2.sounds) d) p (fun ps => { ps with stack := [] })

/-- A stored controller of the part as a whole. -/
def partController (d : Dev) (p s c v : Nat) : Dev :=
  let d := renderPart d p s
  let was := pedalDown d p
  let d := modPart d p (fun ps => { ps with cc := mput 0 ps.cc c v })
  if was && !pedalDown d p then pedalUp d p s else d

/-- Numbers k of the PNC slots whose source has [7:0] equal to i, and [15] equal to the given bit if any. -/
def pncFor (d : Dev) (p i : Nat) (assign : Option Nat) : List Nat :=
  (rangeFrom 0 4).filter (fun k =>
    let s := pf d p (0x1A + k)
    s % 256 = i && (match assign with
      | some b => s / 32768 = b
      | none => true))

/-- Write PNC slots of a voice. -/
def putPnc (ks : List Nat) (x : Nat) (v : Voice) : Voice := { v with pnc := ks.foldl (fun l k => setNth l k x) v.pnc }

/-- A channel of an MPE part's zone members. DEDUCED: log entry 41. -/
def isMember (d : Dev) (p c : Nat) : Bool := pf d p 0x18 != 0 && mpeMember d p c

/-- A control change at sample s (11 R312, R313, 09 R272, R273). DEDUCED: log entry 41. -/
def controlChange (d : Dev) (e : EvItem) : Dev :=
  let p := e.part
  let s := e.six
  let u0 := e.u0
  let u1 := e.u1
  let c := umpB2 u0 % 128
  let ch := umpChannel u0
  let v := umpVal32 u0 u1
  if 120 ≤ c then
    if pf d p 0x18 ≠ 0 ∧ ch ≠ mpeManager d p then d
    else if c = 120 then allSoundOff d p s
    else if c = 121 then resetControllers d p s
    else if c = 123 then allNotesOff d e
    else d
  else if isMember d p ch then
    let ks := pncFor d p c none
    if ks = [] then d
    else
      let d := onSlots d s (memberVoices d p ch) (putPnc ks v)
      modPart d p (fun ps => { ps with chCc := mput 0 ps.chCc (ch * 256 + c) v })
  else
    let d := partController d p s c v
    if c = 32 ∧ umpMt u0 = 2 then modPart d p (fun ps => { ps with bank := some (umpB3 u0 % 128) }) else d

/-- A program change at sample s (09 R272). PRESUMED: log entry 42. -/
def programChange (d : Dev) (p u0 u1 : Nat) : Dev :=
  if pf d p 0x17 = 0 ∨ isMember d p (umpChannel u0) then d
  else
    let ps := partOf d p
    let cur := ps.program / 128
    let b := if umpMt u0 = 4 then (if bitOf u0 0 then u1 % 128 else cur) else ps.bank.getD cur
    let prog := if umpMt u0 = 4 then u1 / 2 ^ 24 % 128 else umpB2 u0 % 128
    let x := 128 * b + prog
    if x ≤ 2047 then modPart d p (fun ps => { ps with program := x }) else d

/-- Channel pressure and pitch bend at sample s (11 R312, 09 R273). -/
def channelPressure (d : Dev) (p s u0 u1 : Nat) : Dev :=
  let ch := umpChannel u0
  let v := umpVal32 u0 u1
  if isMember d p ch then
    let d := onSlots d s (memberVoices d p ch) (fun x => { x with press := v })
    modPart d p (fun ps => { ps with chPress := mput 0 ps.chPress ch v })
  else modPart (renderPart d p s) p (fun ps => { ps with press := v })
def pitchBend (d : Dev) (p s u0 u1 : Nat) : Dev :=
  let ch := umpChannel u0
  let v := umpVal32 u0 u1
  if isMember d p ch then
    let d := onSlots d s (memberVoices d p ch) (fun x => { x with npb := v })
    modPart d p (fun ps => { ps with chBend := mput (2 ^ 31) ps.chBend ch v })
  else modPart (renderPart d p s) p (fun ps => { ps with bend := v })

/-- A per-note message at sample s (09 R274, 10 R292); on an MPE part only a member channel's voices match. PRESUMED: log entry 42. -/
def perNote (d : Dev) (e : EvItem) : Dev :=
  let p := e.part
  let s := e.six
  let u0 := e.u0
  let u1 := e.u1
  let st := umpStatus u0
  let c := umpChannel u0
  let n := umpB2 u0 % 128
  if (partOf d p).deferred.any (fun x => x.note.sameId c n) || (pf d p 0x18 != 0 && !mpeMember d p c) then d
  else
    let l := ((slotsOfPart d p).filter (fun x => x.2.chan = c && x.2.note = n && !x.2.deaf && x.2.wait.isNone)).map (·.1)
    let v := umpVal32 u0 u1
    let d := l.foldl (fun d n => deliver d n e) d
    if st = 0xA then onSlots d s l (fun x => { x with press := v })
    else if st = 0 then onSlots d s l (putPnc (pncFor d p (umpB3 u0) (some 0)) v)
    else if st = 1 then onSlots d s l (putPnc (pncFor d p (umpB3 u0) (some 1)) v)
    else if st = 6 then onSlots d s l (fun x => { x with npb := v })
    else if st = 0xF then
      let d := if bitOf u0 0 then onSlots d s l resetPerNote else d
      if bitOf u0 1 then onSlots d s l (fun x => { x with deaf := true }) else d
    else d

/-- The note of a note-on, with its Pitch 7.9 attribute (09 R267); none where key' lies outside 0-127: such a note-on has no
effect on its part. DESIGN CHOICE: log entry 66. -/
def noteOf (d : Dev) (p src u0 u1 : Nat) : Option NoteRec :=
  let key : Int := ((umpB2 u0 % 128 : Nat) : Int) + sgn 16 (pf d p 0x08)
  let attr : Option Int := if umpMt u0 = 4 ∧ umpB3 u0 = 3 then some ((u1 % 65536 : Nat) : Int) else none
  if 0 ≤ key ∧ key ≤ 127 then some ⟨umpChannel u0, umpB2 u0 % 128, key.toNat, umpVel u0 u1, src, attr, 0⟩ else none

/-- A control change that makes Root act: its controller number is 120 or above (11 R313). -/
def isModeMessage (e : EvItem) : Bool := umpStatus e.u0 = 0xB && 120 ≤ umpB2 e.u0 % 128

/-- The place of a message in the order of its sample: what Root generates for a mode message carries SRC 0x0F00, and
note-offs CLASS 1 (11 R309, R312, R313). DEDUCED: log entry 41. -/
def asRoot (e : EvItem) : EvItem :=
  if isModeMessage e then { e with src := 0x0F00, cls := if umpB2 e.u0 % 128 = 123 then 1 else 0 } else e

/-- One event at its sample (11 R312, R325); a part that is disabled takes none (10 R303). -/
def applyEvent (w : Wnd) (d : Dev) (e : EvItem) : Dev :=
  let p := e.part
  let s := e.six
  let key := (e.six * 16 + e.cls) * 65536 + e.src
  let st := umpStatus e.u0
  let ch := umpChannel e.u0
  if partOn d p = false then d
  else if st = 0xB then controlChange d e
  else if e.cls = 2 then
    if pf d p 0x18 ≠ 0 ∧ !mpeMember d p ch then d
    else match noteOf d p e.src e.u0 e.u1 with
      | some x => partNoteOn d w p s key x
      | none => d
  else if e.cls = 1 then partNoteOff d w e key
  else if st = 0xC then programChange d p e.u0 e.u1
  else if st = 0xD then channelPressure d p s e.u0 e.u1
  else if st = 0xE then pitchBend d p s e.u0 e.u1
  else perNote d e

/-! ### The allocator's work in a window -/

/-- The item of a queued event (11 R320, R321). -/
def itemOf (d : Dev) (p : Nat) (v : BitVec 128) : EvItem := ⟨p, 0, evSix d v, evClass v, evSrc v, evU0 v, evU1 v⟩

/-- Parts whose queue holds an item. -/
def queuedParts (d : Dev) : List Nat := (d.stalk.queues.filter (fun c => c.1 < 256 && !c.2.items.isEmpty)).map (·.1)

/-- Items of part p's queue below sample e, each with its own SRC and the number of its message. -/
def dueItems (d : Dev) (e p : Nat) : List (EvItem × Nat × Nat) :=
  ((numbered (queueOf d p)).filter (fun x => evSix d x.1 < e)).map (fun x =>
    (asRoot (itemOf d p x.1), evSrc x.1, x.2))

/-- The order of the messages of a block: by key, then by the source itself, since the order of arrival between two sources decides
nothing (11 R319), then by message. -/
def takenBefore (a b : EvItem × Nat × Nat) : Bool :=
  let key (x : EvItem) : Nat := (x.six * 16 + x.cls) * 65536 + x.src
  decide (key a.1 < key b.1) || (key a.1 == key b.1 &&
    (decide (a.2.1 < b.2.1) || (a.2.1 == b.2.1 && decide (a.2.2 < b.2.2))))

/-- Take every item below sample e from the part event queues (11 R323), in order of key, then of message, then of part
(10 R284). Root's own note-offs are one message each (04 R142). -/
def takeItems (d : Dev) (e : Nat) : Dev × List EvItem :=
  let got := (queuedParts d).flatMap (dueItems d e)
  let root := (d.alloc.rootEvents.filter (fun x => x.six < e)).map (fun x => (x, x.src, 0))
  let d := (queuedParts d).foldl (fun d p => modQueue d p (fun q =>
    { keepItems (fun v => decide (¬ evSix d v < e)) q with
             last := ((q.items.filter (fun v => evSix d v < e)).getLast?).getD q.last })) d
  let d := { d with alloc := { d.alloc with rootEvents := d.alloc.rootEvents.filter (fun x => ¬ x.six < e) } }
  (d, (sortBy takenBefore (got ++ root)).map (·.1))

/-- Parts that hold a note. -/
def heldParts (d : Dev) : List Nat := (d.alloc.parts.filter (fun c => !c.2.held.isEmpty)).map (·.1)

/-- The events of a block in order. Before the first event of a sample, the parts holding a note are noted; after
the events of the first sample, the part states are kept for readers. -/
def applyEvents (w : Wnd) : List EvItem → Nat → Dev → Dev
  | [], _, d => d
  | e :: r, prev, d =>
    let d := if e.six = prev then d else { d with alloc := { d.alloc with heldWas := heldParts d } }
    let d := applyEvent w d e
    let more := r.any (fun x => x.six = w.f)
    let d := if e.six = w.f ∧ more = false then { d with alloc := { d.alloc with shown := d.alloc.parts } } else d
    applyEvents w r e.six d

/-- Parts with a sustained voice in a slot. -/
def sustainedParts (d : Dev) : List Nat := ((d.alloc.slots.filter (fun x => x.2.sustained)).map (·.2.part)).eraseDups

/-- Retry one deferred note-on at the first sample of block k + 2 (10 R284 step 3, R292). One that comes out refused restarts the part's
LFOs, one that has waited its MAX_WAIT blocks does not. DESIGN CHOICE: log entry 66. -/
def retryOne (w : Wnd) (d : Dev) (x : Nat × Deferral) : Dev :=
  let p := x.1
  let y := x.2
  if (partOf d p).deferred.contains y then
    let d := modPart d p (fun ps => { ps with deferred := ps.deferred.erase y })
    let g : Glide := (y.g0, y.gStart, y.gLen)
    let again (d : Dev) : Dev :=
      if y.window + rs d 0x4C00 0x02 ≤ w.k then refuseNote d (w.k + 2)
      else
        let d := capVoid (bump d 0x4C00 0x06) (w.k + 2)
        modPart d p (fun ps => { ps with deferred := ps.deferred ++ [y] })
    let own := if pf d p 0x11 = 0 then none else ownVoice d p
    match own with
    | some (n, _) =>
      if stealOk d n (costOf d.ver.active (partOf d p).program) then
        syncPart (startVoice (steal d n w.f) p w.f n y.note g) p w.f y.sync
      else again d
    | none => match noteOnPlace d w.k w.f p w.f y.note g with
      | (d, .started) => syncPart d p w.f y.sync
      | (d, .refused) => syncPart (refuseNote d (w.k + 2)) p w.f y.sync
      | (d, .deferred _) => again d
  else d

/-- Every deferred note-on with its part, in original key order, those of equal keys part by part. DESIGN CHOICE: log entry 66. -/
def deferrals (d : Dev) : List (Nat × Deferral) :=
  let l := d.alloc.parts.flatMap (fun c => c.2.deferred.map (fun y => (c.1, y)))
  sortBy (fun a b => decide (a.2.key < b.2.key)) l

/-- Refuse a deferral that has waited its MAX_WAIT blocks (10 R292); it restarts no part LFO. DESIGN CHOICE: log entry 66. -/
def refuseDue (k : Nat) (d : Dev) (x : Nat × Deferral) : Dev :=
  if x.2.window + rs d 0x4C00 0x02 ≤ k then
    refuseNote (modPart d x.1 (fun ps => { ps with deferred := ps.deferred.erase x.2 })) (k + 2)
  else d

/-- R303 at the switch: a part that the switch disables loses its deferrals and its queued events. -/
def disablePart (d : Dev) (p : Nat) : Dev :=
  let n := (partOf d p).deferred.length
  let d := bump (modPart d p (fun ps => { ps with deferred := [] })) 0x4C00 0x07 n
  modQueue d p emptyItems

/-- Commit-adds declared for window k: each position's channels (R284, 03 R81). -/
def podDecls (d : Dev) (k : Nat) : List Decl :=
  let vs := d.alloc.slots.map (fun x => (x.1 / 32, x.2)) ++ d.alloc.lanes.map (fun x => (x.1 / 8, x.2))
  let cs := vs.flatMap (fun x => (sendChannels d (podRecord d x.2.program) x.2.part).map (fun c => (x.1, c)))
  let cs := (sortBy (fun (a b : Nat × Nat) => decide (a.1 * 128 + a.2 < b.1 * 128 + b.2)) cs).eraseDups
  (cs.filter (fun x => posIn d x.1)).map (fun x => ⟨k, true, x.1, x.2⟩)

/-- The Pod transactions of window k from the vectors (03 R81). -/
def podTxnsOf (d : Dev) (decls : List Decl) (k : Nat) : List PodTxn :=
  (positionsIn d).filterMap (fun o =>
    let l := decls.filter (fun x => x.name = o)
    let terms := termsOf d.alloc.podOut o
    let here := (d.alloc.slots.filter (fun x => x.1 / 32 = o)).map (·.2) ++ (d.alloc.lanes.filter (fun x => x.1 / 8 = o)).map (·.2)
    let qs := (rangeFrom (voiceQueue d (32 * o)) (slotCount d)).filter (fun q => 0 < qCount d q)
    let reads (q : Nat) : Nat := qCount d q + (waitingFor d q).length
    if here.isEmpty && qs.isEmpty then none
    else some ⟨k, o, l.map (fun x => (x.ch, vecOf d terms x.ch)), d.alloc.slots.any (fun x => x.1 / 32 = o), none,
      terms, here.filterMap (fun v => v.word.map (fun x => (v.serial, x))), qs.map (fun q => (q, reads q))⟩)

/-- Clear the underrun marks of the block before. -/
def freshUnder (v : Voice) : Voice := { v with oscs := v.oscs.map (fun o => { o with under := false }) }

/-- The opening of window k for the allocator and the Pods (10 R284, 11 R323): `off` are the parts that the switch
at this boundary disables. Answers the commit-adds the Pods declare. -/
def allocWindow (d : Dev) (k : Nat) (off : List Nat) : Dev × List Decl :=
  let b := blockLen d
  let w : Wnd := ⟨k, (k + 2) * b⟩
  let d := { d with alloc := { d.alloc with
    slots := d.alloc.slots.map (fun x => (x.1, freshUnder x.2))
    lanes := d.alloc.lanes.map (fun x => (x.1, freshUnder x.2)), podOut := [] } }
  let d := off.foldl disablePart d
  let d := freeEnded d k w.f
  let d := (waitingVoices d).foldl (leaveOrWait w.f) d
  let d := off.foldl (fun d p => ((slotsOfPart d p).filter (fun x => x.2.wait.isNone)).foldl (fun d x => leaveOrWait w.f d x.1) d) d
  let d := reduce d k w.f
  let d := (deferrals d).foldl (retryOne w) d
  let d := (sustainedParts d).foldl (fun d p => if pedalDown d p then d else pedalUp d p w.f) d
  let r := takeItems d (w.f + b)
  let d := { r.1 with alloc := { r.1.alloc with heldWas := heldParts r.1, shown := r.1.alloc.parts } }
  let d := applyEvents w r.2 0 d
  let decls := podDecls d k
  let d := renderAll d (w.f + b)
  let d := { d with alloc := { d.alloc with podTxns := d.alloc.podTxns ++ podTxnsOf d decls k } }
  (d, decls)

/-- Every voice ends without a fade, and the parts' queued work with it, the voice event queues among it (02 R46).
DESIGN CHOICE: log entry 59. -/
def endVoices (d : Dev) : Dev :=
  let d := ((d.stalk.queues.map (·.1)).filter (fun q => kindIn d.ver.active q = 2)).foldl (fun d q => modQueue d q emptyItems) d
  { d with alloc := { d.alloc with
      slots := [], lanes := [], ended := [], voiceWaits := [], rootEvents := [], podOut := [], podTxns := [], heldWas := []
      parts := (d.alloc.parts.map (fun c => (c.1, { c.2 with stack := [], held := [], silent := [], deferred := [] }))).filter
        (fun c => c.2 ≠ PartSt.zero) }
           tuber := { d.tuber with streams := [] } }

/-- Part states at a media start (08 R243, 09 R268, R272): defaults, CUR_PROGRAM = PROGRAM, part-LFO phases. -/
def startParts (d : Dev) : Dev :=
  let v := d.ver.active
  let ps (p : Nat) : PartSt :=
    { PartSt.zero with
        program := vGet v (0x3000 + p) 0x02
        phase := (rangeFrom 0 8).foldl (fun m l => mput (0, 0) m l (plfo v p l 2 * 2 ^ 16, 0)) [] }
  let l := ((rangeFrom 0 256).map (fun p => (p, ps p))).filter (fun c => c.2 ≠ PartSt.zero)
  { d with alloc := { d.alloc with parts := l, shown := l } }

/-- Part-LFO phases take a new reference at the first sample of a block when a switch changes their rates (08 R242);
`old` is the version before the switch. -/
def rephase (d : Dev) (old : Version) (f : Nat) : Dev :=
  (rangeFrom 0 256).foldl (fun d p =>
    (rangeFrom 0 8).foldl (fun d l =>
      if plfo old p l 1 = plfo d.ver.active p l 1 then d
      else modPart d p (fun ps => { ps with phase := mput (0, 0) ps.phase l (plfoPhase d old p l f ps, f) })) d) d

/-- CUR_PROGRAM follows PROGRAM where a switch changes it (09 R272), that of a REVERT as that of a COMMIT.
DEDUCED: log entry 66. -/
def reprogram (d : Dev) (old : Version) : Dev :=
  (rangeFrom 0 256).foldl (fun d p =>
    let a := vGet d.ver.active (0x3000 + p) 0x02
    if vGet old (0x3000 + p) 0x02 = a then d else modPart d p (fun ps => { ps with program := a })) d

end Sys2Proof.Machine
end

