-- ==== Sys2Proof/Machine/MarrowMem.lean ====
section
/-!
DEFINITION. Sys2Proof/Machine/MarrowMem.lean: the data accesses of a Marrow thread (14 R420-R426, R429; 15 R449-R456):
windows, refusals and the freeze of a core, local memory, transactional and direct loads and stores, staging and its
overflow, atomics, commit-add, block normalisation.
-/
namespace Sys2Proof.Machine

/-- Freeze of a core (04 R143): CORE_FREEZE takes the cause and a record is written; a core already frozen keeps
its first cause. -/
def freezeCore (d : Dev) (n cause addr : Nat) : Dev :=
  if coreFrozen d n then d
  else addFault (oSet d 0x1020 (n + 1) cause) 0x08 (0x40 + n) 5 0xFF 0 cause addr

/-- An access or request refused under cause 5 (14 R426). -/
def refuse (d : Dev) (n kind addr : Nat) : Dev :=
  let d := bump d 0x5300 0x02
  let d := oSet (oSet d (0x5000 + 0x20 * n) 0x07 (addr % 2 ^ 32)) (0x5000 + 0x20 * n) 0x09 kind
  freezeCore d n 5 (addr % 2 ^ 32)

/-- Some window of core n with the right holds the bytes (14 R423): right 0 RD, 1 WR, 2 AT, 3 CA; those of the version
under which the dispatch computes (03 R68). -/
def winAllows (d : Dev) (n a len right : Nat) : Bool :=
  let d := asWindow d n
  (rangeFrom 0 8).any (fun w =>
    let base := rs d (0x5003 + 0x20 * n) (1 + 3 * w)
    let l := rs d (0x5003 + 0x20 * n) (2 + 3 * w)
    0 < l && base ≤ a && a + len ≤ base + l && bitOf (rs d (0x5003 + 0x20 * n) (3 + 3 * w)) right)

/-- Kind of place a core address names, for an access of len bytes (14 R420). -/
inductive Place
  | locMem (a : Nat)
  | gourdMem (a : Nat)
  | nowhere
deriving DecidableEq, Repr

/-- The place of an access (R420). -/
def placeOf (caddr len : Nat) : Place :=
  if caddr + len ≤ 0x20000 then .locMem caddr
  else if 0x40000000 ≤ caddr ∧ caddr - 0x40000000 + len ≤ 0x2000000 then .gourdMem (caddr - 0x40000000)
  else .nowhere

/-- An audio thread's access counts as transactional unless it is a D form (14 R424). -/
def transactional (d : Dev) (n : Nat) (direct : Bool) : Bool := (coreOf d n).txn.isSome && !direct

/-- A direct access of an audio thread to shared data (14 R424, 03 R88). DEDUCED: log entry 40. -/
def directShared (d : Dev) (n : Nat) : Dev :=
  if (coreOf d n).txn.isSome then bump (oSet d 0x0110 0x09 (oGet d 0x0110 0x09 ||| 8)) 0x5300 0x03 else d

/-- A Gourd read meets its memory status: the error handling of 13 R373, R374, and whether UE is returned. -/
def gStatus (d : Dev) (a : Nat) (m : MemSt) : Bool × Dev :=
  if isPoisoned d a then (true, d)
  else match m with
    | .corrected => (false, gourdCe d a)
    | .uncorrectable => (true, gourdUe d a)
    | _ => (false, d)

/-- Bytes of a transactional view: staged bytes forwarded (03 R72), others as at the boundary (R69). A staged atomic add
is no part of it. DESIGN CHOICE: log entry 59. -/
def viewBytes (d : Dev) (x : Txn) (a : Nat) (len : Nat) : List Byte :=
  (rangeFrom a len).map (fun i => (mfind x.writes i).getD (mget 0#8 (snapFor d x.window) i))

/-- A load of len ≤ 8 bytes at Gourd address a: none when refused. -/
def gLoad (d : Dev) (n t a len : Nat) (direct : Bool) (m : MemSt) : Option (List Byte) × Dev :=
  if a % len ≠ 0 ∨ winAllows d n a len 0 = false then (none, refuse d n 0 (a + 0x40000000))
  else if transactional d n direct && inBus d a len then
    let (ue, d) := gStatus d a m
    if ue then (some (List.replicate len 0#8), ueRead d n t) else (some (busBytes d a len), d)
  else if inUserTables a len || inUserArea (asWindow d n) a len then
    match transactional d n direct, (coreOf d n).txn with
    | true, some x =>
      if (rangeFrom a len).all (fun i => (mfind x.writes i).isSome) then (some (viewBytes d x a len), d)
      else
        let (ue, d) := gStatus d a m
        if ue then (some (List.replicate len 0#8), ueRead d n t) else (some (viewBytes d x a len), d)
    | _, _ =>
      let d := directShared d n
      let (ue, d) := gStatus d a m
      if ue then (some (List.replicate len 0#8), ueRead d n t) else (some (mread d.gourd.mem a len), d)
  else (none, refuse d n 0 (a + 0x40000000))

/-- A load of len bytes at a core address: none when refused. -/
def loadAt (d : Dev) (n t caddr len : Nat) (direct : Bool) (m : MemSt) : Option (List Byte) × Dev :=
  match placeOf caddr len with
  | .locMem a =>
    if a % len = 0 then (some (mread (coreOf d n).mem a len), d) else (none, refuse d n 0 caddr)
  | .gourdMem a => gLoad d n t a len direct m
  | .nowhere => (none, refuse d n 0 caddr)

/-- CONST_LEN of core n. -/
def constLen (d : Dev) (n : Nat) : Nat := rs d (0x5003 + 0x20 * n) 0x19

/-- Bytes of the constant area that a store of the dispatch on core n may not reach (14 R422, 03 R68). -/
def constKept (d : Dev) (n : Nat) : Nat := constLen (asWindow d n) n

/-- R73: the block is abandoned; nothing of it commits, the thread is restored and waits for its next block. -/
def abandon (d : Dev) (n t : Nat) (x : Txn) : Dev :=
  let d := voidAt (bump d 0x0110 0x04) 4 (x.window + 2)
  let d := { d with gourd := { d.gourd with missing := x.window :: d.gourd.missing } }
  let d := modThr d t (fun y => { y with regs := y.save, conf := false })
  let d := undeclare x.window false t (coreIdle d n)
  schedule (audioRest (releaseFlow d t) t)

/-- Take staging entries for the block of core n: none when the buffer (256 entries) overflows. -/
def stage (d : Dev) (n k : Nat) (f : Txn → Txn) : Option Dev :=
  match (coreOf d n).txn with
  | some x => if 256 < x.used + k then none
    else some (modCore d n (fun c => { c with txn := some (f { x with used := x.used + k }) }))
  | none => some d

/-- Stage a plain write of a byte string as one entry, merged per address (03 R71). -/
def stageWrite (d : Dev) (n a : Nat) (bs : List Byte) : Option Dev :=
  match (coreOf d n).txn with
  | some x =>
    let fresh := !x.slots.contains a
    stage d n (b2n fresh) (fun x => { x with
        writes := (List.zip (rangeFrom a bs.length) bs).foldl (fun m c => mins m c.1 c.2) x.writes
        slots := if fresh then x.slots ++ [a] else x.slots })
  | none => some d

/-- Whether a Gourd plain store of len bytes is allowed (14 R423, 13 R386). -/
def storeOk (d : Dev) (n a len : Nat) : Bool :=
  a % len = 0 && winAllows d n a len 1 && (inUserTables a len || inUserArea (asWindow d n) a len)

/-- A direct plain store of at most 8 bytes: dropped with CONFLICT on the spine port (13 R376, R377). -/
def gStoreDirect (d : Dev) (n t a : Nat) (bs : List Byte) (m : MemSt) : Dev :=
  let d := directShared d n
  if m = .conflict ∧ gQuad a ≠ n / 5 then
    let d := bump (bump d (0x6000 + gBank a) 0x06) (0x5000 + 0x20 * n) 0x05
    modThr d t (fun x => { x with conf := true })
  else gStoreWord d a bs

/-- Outcome of a store: performed, refused, or the block abandoned. -/
inductive StoreRes
  | done (d : Dev)
  | refused (d : Dev)
  | abandoned (d : Dev)

/-- A scalar store of len ≤ 8 bytes at a core address. -/
def storeAt (d : Dev) (n t caddr : Nat) (bs : List Byte) (direct : Bool) (m : MemSt) : StoreRes :=
  let len := bs.length
  match placeOf caddr len with
  | .locMem a =>
    if a % len ≠ 0 ∨ a < constKept d n then .refused (refuse d n 0 caddr)
    else .done (modCore d n (fun c => { c with mem := mwrite c.mem a bs }))
  | .gourdMem a =>
    if storeOk d n a len then
      match transactional d n direct, (coreOf d n).txn with
      | true, some x => match stageWrite d n a bs with
        | some d => .done d
        | none => .abandoned (abandon d n t x)
      | _, _ => .done (gStoreDirect d n t a bs m)
    else .refused (refuse d n 0 caddr)
  | .nowhere => .refused (refuse d n 0 caddr)

/-- Whether a 16-byte access names Gourd, and so is performed as two 8-byte ones (15 R451). -/
def vecSplit (caddr : Nat) : Bool := 0x40000000 ≤ caddr && caddr < 0x42000000

/-- The bytes that a read gives and whether it was refused: a refused one reads as 0 (04 R138). -/
def readOr (n : Nat) (x : Option (List Byte)) : List Byte := x.getD (List.replicate n 0#8)

/-- A 16-byte vector load, and whether an access of it was refused: Gourd as two 8-byte accesses, the lower first, each
refused or performed by itself (15 R451). -/
def vloadAt (d : Dev) (n t caddr : Nat) (direct : Bool) (m0 m1 : MemSt) : (List Byte × Bool) × Dev :=
  if vecSplit caddr then
    let x := loadAt d n t caddr 8 direct m0
    let y := loadAt x.2 n t (caddr + 8) 8 direct m1
    ((readOr 8 x.1 ++ readOr 8 y.1, x.1.isNone || y.1.isNone), y.2)
  else
    let x := loadAt d n t caddr 16 direct m0
    ((readOr 16 x.1, x.1.isNone), x.2)

/-- The next access of a store: refused when it or an earlier one is. -/
def storeNext (r : StoreRes) (f : Dev → StoreRes) : StoreRes := match r with
  | .done d => f d
  | .refused d => match f d with
    | .done d => .refused d
    | r => r
  | .abandoned d => .abandoned d

/-- An 8-byte access of a transactional vector store is refused, with its own address, or allowed. -/
def halfOk (n a : Nat) (d : Dev) : StoreRes :=
  if a + 8 ≤ 0x2000000 ∧ storeOk d n a 8 then .done d else .refused (refuse d n 0 (a + 0x40000000))

/-- A transactional vector store at Gourd address a: one staging entry for the bytes of the accesses that are allowed. -/
def vstage (d : Dev) (n t a : Nat) (bs : List Byte) (x : Txn) : StoreRes :=
  let ok (a : Nat) : Bool := decide (a + 8 ≤ 0x2000000) && storeOk d n a 8
  let put (d : Dev) (a : Nat) (bs : List Byte) : StoreRes := match stageWrite d n a bs with
    | some d => .done d
    | none => .abandoned (abandon d n t x)
  let r := storeNext (halfOk n a d) (halfOk n (a + 8))
  if ok a && ok (a + 8) then storeNext r (fun d => put d a bs)
  else if ok a then storeNext r (fun d => put d a (bs.take 8))
  else if ok (a + 8) then storeNext r (fun d => put d (a + 8) (bs.drop 8))
  else r

/-- A 16-byte vector store (15 R451). -/
def vstoreAt (d : Dev) (n t caddr : Nat) (bs : List Byte) (direct : Bool) (m0 m1 : MemSt) : StoreRes :=
  if vecSplit caddr then
    match transactional d n direct, (coreOf d n).txn with
    | true, some x => vstage d n t (caddr - 0x40000000) bs x
    | _, _ => storeNext (storeAt d n t caddr (bs.take 8) direct m0) (fun d => storeAt d n t (caddr + 8) (bs.drop 8) direct m1)
  else storeAt d n t caddr bs direct m0

/-! ### Atomics and commit-add (13 R379; 15 R453-R455) -/

/-- An atomic's target address in Gourd when its access is allowed. -/
def atomicAddr (d : Dev) (n caddr len : Nat) : Option Nat :=
  match placeOf caddr len with
  | .gourdMem a =>
    if a % len = 0 && winAllows d n a len 2 && (inUserTables a len || inUserArea (asWindow d n) a len) then some a else none
  | _ => none

/-- A direct atomic of len bytes: f maps the old value to the new one; answers the old value, or UE. A 64-bit swap is
performed on a poisoned word too, and clears its poison (13 R374). -/
def atomicDirect (d : Dev) (a len : Nat) (f : Nat → Nat) (swap64 : Bool) (m : MemSt) : Option Nat × Dev :=
  let (ue, d) := gStatus d a m
  if ue then (none, if swap64 then gStoreWord d a (toLE len (f 0)) else d)
  else
    let old := fromLE (mread d.gourd.mem a len)
    (some old, { d with gourd := { d.gourd with mem := mwrite d.gourd.mem a (toLE len (f old)) } })

/-- Stage a transactional atomic add (15 R454): one entry. -/
def stageAdd (d : Dev) (n a len v : Nat) : Option Dev :=
  stage d n 1 (fun x => { x with adds := x.adds ++ [(a, len, v)] })

/-- The commit-add of 15 R455 from local address src into the bus words at core address caddr. -/
def cadd (d : Dev) (n t src caddr : Nat) : StoreRes :=
  let b := blockLen d
  match (coreOf d n).txn, placeOf caddr (8 * b) with
  | some x, .gourdMem a =>
    let (ch, par, i) := busOf b a
    if src % 8 = 0 ∧ src + 8 * b ≤ 0x20000 ∧ inBus d a (8 * b) ∧ i = 0 ∧ a % 8 = 0 ∧
        par = (x.window + 2) % 2 ∧ winAllows d n a (8 * b) 3 then
      let v := (rangeFrom 0 b).map (fun j => sgn 64 (fromLE (mread (coreOf d n).mem (src + 8 * j) 8)))
      match stage d n b (fun x => { x with cadds := x.cadds ++ [(ch, v)] }) with
      | some d => .done d
      | none => .abandoned (abandon d n t x)
    else .refused (refuse d n 0 (if src % 8 = 0 ∧ src + 8 * b ≤ 0x20000 then caddr else src))
  | _, _ => .refused (refuse d n 0 caddr)

/-! ### BNORM (14 R410) -/

/-- A normalised lane: shift s with saturation, or a rounded right shift. -/
def normLane (s : Int) (x : BitVec 16) : BitVec 16 :=
  BitVec.ofInt 16 (if 0 ≤ s then sat (x.toInt * (2 ^ s.toNat : Nat)) 16 else sat (rndConv x.toInt (-s).toNat) 16)

/-- The bytes of a vector and the vector of 16 bytes. -/
def vecBytes (v : BitVec 128) : List Byte := toLE 16 v.toNat
def bytesVec (l : List Byte) : BitVec 128 := BitVec.ofNat 128 (fromLE l)

/-- k step groups of BNORM, whether every one was performed, and whether the block was abandoned. `ms` holds four statuses
for each group: those of its load's accesses and of its store's. A group with a refused access is the last (15 R463).
DEDUCED: log entry 59. -/
def bnormGroups (n t : Nat) (a : BitVec 3) (s : Int) : List MemSt → Nat → Dev → Dev × Bool × Bool
  | _, 0, d => (d, true, false)
  | ms, k + 1, d =>
    let caddr := (aR (thr d t).regs 0 a).toNat
    let x := vloadAt d n t caddr false (nth .ok ms 0) (nth .ok ms 1)
    let v := bytesVec x.1.1
    match vstoreAt x.2 n t caddr (vecBytes (vOf (fun l => normLane s (lane v l)))) false (nth .ok ms 2) (nth .ok ms 3) with
    | .done d =>
      let d := modRegs d t (fun r => postMod r a 16)
      if x.1.2 then (d, false, false) else bnormGroups n t a s (ms.drop 4) k d
    | .refused d => (modRegs d t (fun r => postMod r a 16), false, false)
    | .abandoned d => (d, false, true)

end Sys2Proof.Machine
end

