-- ==== Sys2Proof/Machine/MarrowCore.lean ====
section
/-!
DEFINITION. Sys2Proof/Machine/MarrowCore.lean: how a meaning reaches State, and how an instruction runs on the
thread in dispatch on a core (14 R411, R412): issue, effect, completion or transfer.
-/
namespace Sys2Proof.Machine

/-- What exec answers. -/
abbrev Out := Host.Outcome State Fault Refusal

/-- A command's effect on the device; the queue of commands stays as it is. DESIGN CHOICE: log entry 7. -/
def onDev (f : Dev → Dev) (s : State) : Out := .next { s with dev := f s.dev }

/-- A command that acts on the device while it is awake: in reset and in sleep nothing happens (23 R683, R687).
DESIGN CHOICE: log entry 7. -/
def onAwake (f : Dev → Dev) (s : State) : Out := onDev (fun d => if d.power.phase = .awake then f d else d) s

/-- Run an instruction on the thread in dispatch on core n; a core without a running thread issues nothing.
DESIGN CHOICE: log entry 7. -/
def onCore (n : Nat) (f : Dev → Nat → Dev) (d : Dev) : Dev :=
  match (coreOf d n).run with
  | none => d
  | some t => if (thr d t).st = .running then f (issue d n t) t else d

/-- An instruction that only changes registers. -/
def regInstr (n : Nat) (f : Regs → Regs) (s : State) : Out :=
  onAwake (onCore n (fun d t => complete (modRegs d t f) n t)) s

/-- An instruction with a dispatch-wide effect. DESIGN CHOICE: log entry 6. -/
def coreInstr (n : Nat) (f : Dev → Nat → Dev) (s : State) : Out := onAwake (onCore n f) s

/-- An undefined word is not performed: it is refused under cause 5 with the PC (15 R441, 14 R426). -/
def undefinedWord (n : Nat) (s : State) : Out :=
  coreInstr n (fun d t => complete (refuse d n 1 (thr d t).regs.pc.toNat) n t) s

/-- A form whose fields R439-R441 restrict: with a field outside its values the word is undefined. -/
def guarded (n : Nat) (ok : Bool) (f : State → Out) (s : State) : Out := if ok then f s else undefinedWord n s

/-- Write Gd and ST. -/
def putAlu (rd : BitVec 5) (x : Word × Word) (r : Regs) : Regs := { gW r rd x.1 with st := x.2 }

/-- A format-R operation Gd := f(Ga, Gb) with flags. -/
def aluR (n : Nat) (rd ra rb : BitVec 5) (f : Word → Word → Word → Word × Word) (s : State) : Out :=
  regInstr n (fun r => putAlu rd (f r.st (gR r ra) (gR r rb)) r) s

/-- A format-I operation. -/
def aluI (n : Nat) (rd ra : BitVec 5) (f : Word → Word → Word × Word) (s : State) : Out :=
  regInstr n (fun r => putAlu rd (f r.st (gR r ra)) r) s

end Sys2Proof.Machine
end

