-- ==== Sys2Proof/Machine/MarrowScalar.lean ====
section
/-!
DEFINITION. Sys2Proof/Machine/MarrowScalar.lean: system registers, scalar arithmetic, control flow and address
registers of a Marrow core (15 R442-R448).
-/
namespace Sys2Proof.Machine

/-- ADD (15 R444). -/
def execAdd (n : Nat) (rd ra rb : BitVec 5) (s : State) : Out := aluR n rd ra rb addFlags s
/-- SUB (15 R444). -/
def execSub (n : Nat) (rd ra rb : BitVec 5) (s : State) : Out := aluR n rd ra rb subFlags s
/-- AND. -/
def execAnd (n : Nat) (rd ra rb : BitVec 5) (s : State) : Out := aluR n rd ra rb (fun st a b => nzFlags st (a &&& b)) s
/-- OR. -/
def execOr (n : Nat) (rd ra rb : BitVec 5) (s : State) : Out := aluR n rd ra rb (fun st a b => nzFlags st (a ||| b)) s
/-- XOR. -/
def execXor (n : Nat) (rd ra rb : BitVec 5) (s : State) : Out := aluR n rd ra rb (fun st a b => nzFlags st (a ^^^ b)) s
/-- SHL: the count is Gb[4:0]. -/
def execShl (n : Nat) (rd ra rb : BitVec 5) (s : State) : Out :=
  aluR n rd ra rb (fun st a b => shlFlags st a (b.toNat % 32)) s
/-- SHR. -/
def execShr (n : Nat) (rd ra rb : BitVec 5) (s : State) : Out :=
  aluR n rd ra rb (fun st a b => shrFlags st a (b.toNat % 32)) s
/-- SAR. -/
def execSar (n : Nat) (rd ra rb : BitVec 5) (s : State) : Out :=
  aluR n rd ra rb (fun st a b => sarFlags st a (b.toNat % 32)) s
/-- SHLI: the count is the b field. -/
def execShli (n : Nat) (rd ra c : BitVec 5) (s : State) : Out := aluI n rd ra (fun st a => shlFlags st a c.toNat) s
/-- SHRI. -/
def execShri (n : Nat) (rd ra c : BitVec 5) (s : State) : Out := aluI n rd ra (fun st a => shrFlags st a c.toNat) s
/-- SARI. -/
def execSari (n : Nat) (rd ra c : BitVec 5) (s : State) : Out := aluI n rd ra (fun st a => sarFlags st a c.toNat) s
/-- MUL: the low 32 bits. -/
def execMul (n : Nat) (rd ra rb : BitVec 5) (s : State) : Out := aluR n rd ra rb (fun st a b => nzFlags st (a * b)) s
/-- MULH: the high 32 bits of the signed product. -/
def execMulh (n : Nat) (rd ra rb : BitVec 5) (s : State) : Out :=
  aluR n rd ra rb (fun st a b => nzFlags st (BitVec.ofInt 32 (a.toInt * b.toInt / 2 ^ 32))) s
/-- MULHU: the high 32 bits of the unsigned product. -/
def execMulhu (n : Nat) (rd ra rb : BitVec 5) (s : State) : Out :=
  aluR n rd ra rb (fun st a b => nzFlags st (BitVec.ofNat 32 (a.toNat * b.toNat / 2 ^ 32))) s
/-- MULQ: the rounded and saturated Q1.31 product. -/
def execMulq (n : Nat) (rd ra rb : BitVec 5) (s : State) : Out :=
  aluR n rd ra rb (fun st a b => nzFlags st (BitVec.ofInt 32 (sat (rndConv (a.toInt * b.toInt) 31) 32))) s
/-- ADDS: V tells whether it was clamped. -/
def execAdds (n : Nat) (rd ra rb : BitVec 5) (s : State) : Out :=
  aluR n rd ra rb (fun st a b => satFlags st (a.toInt + b.toInt)) s
/-- SUBS. -/
def execSubs (n : Nat) (rd ra rb : BitVec 5) (s : State) : Out :=
  aluR n rd ra rb (fun st a b => satFlags st (a.toInt - b.toInt)) s
/-- MIN, signed. -/
def execMin (n : Nat) (rd ra rb : BitVec 5) (s : State) : Out :=
  aluR n rd ra rb (fun st a b => nzFlags st (if a.slt b then a else b)) s
/-- MAX, signed. -/
def execMax (n : Nat) (rd ra rb : BitVec 5) (s : State) : Out :=
  aluR n rd ra rb (fun st a b => nzFlags st (if a.slt b then b else a)) s
/-- CLZ: Z from the count, N := 0. -/
def execClz (n : Nat) (rd ra : BitVec 5) (s : State) : Out := aluI n rd ra clzFlags s

/-- ADDI (15 R445), imm signed. -/
def execAddi (n : Nat) (rd ra : BitVec 5) (imm : BitVec 16) (s : State) : Out :=
  aluI n rd ra (fun st a => addFlags st a (imm.signExtend 32)) s
/-- SUBI. -/
def execSubi (n : Nat) (rd ra : BitVec 5) (imm : BitVec 16) (s : State) : Out :=
  aluI n rd ra (fun st a => subFlags st a (imm.signExtend 32)) s
/-- ANDI, imm zero-extended. -/
def execAndi (n : Nat) (rd ra : BitVec 5) (imm : BitVec 16) (s : State) : Out :=
  aluI n rd ra (fun st a => nzFlags st (a &&& imm.setWidth 32)) s
/-- ORI. -/
def execOri (n : Nat) (rd ra : BitVec 5) (imm : BitVec 16) (s : State) : Out :=
  aluI n rd ra (fun st a => nzFlags st (a ||| imm.setWidth 32)) s
/-- XORI. -/
def execXori (n : Nat) (rd ra : BitVec 5) (imm : BitVec 16) (s : State) : Out :=
  aluI n rd ra (fun st a => nzFlags st (a ^^^ imm.setWidth 32)) s
/-- MOVHI: imm × 2^16, no flag. -/
def execMovhi (n : Nat) (rd : BitVec 5) (imm : BitVec 16) (s : State) : Out :=
  regInstr n (fun r => gW r rd (imm ++ 0#16)) s

/-! ### Status registers (15 R442) -/

/-- MFS. A CONFLICT that ST does not show yet may or may not be read (14 R425): its bit is then a free value.
DESIGN CHOICE: log entry 14. -/
def execMfs (n : Nat) (rd : BitVec 5) (s : State) : Out :=
  coreInstr n (fun d t =>
    if (thr d t).conf then
      let (k, d) := takeFree d
      complete (modRegs d t (fun r => gW r rd (if Config.freeBit k then stBit r.st 21 true else r.st))) n t
    else complete (modRegs d t (fun r => gW r rd r.st)) n t) s
/-- MTS: ST[22:0] := Gs[22:0]. -/
def execMts (n : Nat) (rs : BitVec 5) (s : State) : Out := regInstr n (fun r => { r with st := stWrite (gR r rs) }) s
/-- STCLR. -/
def execStclr (n : Nat) (rs : BitVec 5) (s : State) : Out :=
  regInstr n (fun r => { r with st := stClear r.st (gR r rs) }) s
/-- MFBX. -/
def execMfbx (n : Nat) (rd : BitVec 5) (s : State) : Out := regInstr n (fun r => gW r rd r.bx) s
/-- MTBX: HEAD := Gs[3:0], SCALE := Gs[15:8]. -/
def execMtbx (n : Nat) (rs : BitVec 5) (s : State) : Out :=
  regInstr n (fun r => { r with bx := bxOf ((gR r rs).extractLsb' 0 4).toNat ((gR r rs).extractLsb' 8 8) }) s

/-! ### Control flow (15 R443, R446, R447) -/

/-- Start a REP loop of `len` instructions; a count of 0 continues after the body as a taken transfer. -/
def startRep (n : Nat) (len : Nat) (count : BitVec 16) (d : Dev) (t : Nat) : Dev :=
  let pc := (thr d t).regs.pc
  let e := pc + BitVec.ofNat 13 len
  let d := modRegs d t (fun r => { r with rstart := pc + 1, rend := e, rcnt := count })
  if count = 0 then transfer d n t (e + 1)
  else modRegs d t (fun r => { r with pc := pc + 1 })

/-- REP with an immediate count; the field holds len − 1. -/
def execRep (n : Nat) (len1 : BitVec 7) (count : BitVec 15) (s : State) : Out :=
  coreInstr n (startRep n (len1.toNat + 1) (count.setWidth 16)) s
/-- REP with the count Gg[15:0]. -/
def execRepReg (n : Nat) (len1 : BitVec 7) (g : BitVec 5) (s : State) : Out :=
  coreInstr n (fun d t => startRep n (len1.toNat + 1) ((gR (thr d t).regs g).setWidth 16) d t) s
/-- BR: to PC + off when the condition holds. -/
def execBr (n : Nat) (c : BitVec 4) (off : BitVec 13) (s : State) : Out :=
  coreInstr n (fun d t =>
    let r := (thr d t).regs
    if condHolds r.st c then transfer d n t (r.pc + off) else complete d n t) s
/-- JMP. -/
def execJmp (n : Nat) (target : BitVec 13) (s : State) : Out := coreInstr n (fun d t => transfer d n t target) s
/-- JAL: Gd := PC + 1, then the target. -/
def execJal (n : Nat) (rd : BitVec 5) (target : BitVec 13) (s : State) : Out :=
  coreInstr n (fun d t =>
    transfer (modRegs d t (fun r => gW r rd ((r.pc + 1).setWidth 32))) n t target) s
/-- JR: to Ga[12:0]. -/
def execJr (n : Nat) (ra : BitVec 5) (s : State) : Out :=
  coreInstr n (fun d t => transfer d n t ((gR (thr d t).regs ra).setWidth 13)) s

/-! ### Fences (13 R383, 14 R413, R425) -/

/-- A CONFLICT shows in ST.CONF at the completion of FENCE.W, FENCE.RW or END (14 R425). -/
def showConf (d : Dev) (t : Nat) : Dev :=
  if (thr d t).conf then
    modThr d t (fun x => { x with conf := false, regs := { x.regs with st := stBit x.regs.st 21 true } })
  else d

/-- FENCE.R: direct accesses are performed in program order here, so nothing waits. -/
def execFenceR (n : Nat) (s : State) : Out := coreInstr n (fun d t => complete d n t) s
/-- FENCE.W. -/
def execFenceW (n : Nat) (s : State) : Out := coreInstr n (fun d t => complete (showConf d t) n t) s
/-- FENCE.RW. -/
def execFenceRw (n : Nat) (s : State) : Out := coreInstr n (fun d t => complete (showConf d t) n t) s
/-- FENCE.I: the prefetch buffer is emptied and filled again. -/
def execFenceI (n : Nat) (s : State) : Out :=
  coreInstr n (fun d t => refill (modRegs d t (fun r => (loopStep r).1)) n t) s

/-! ### Address registers (15 R448) -/

/-- AMOV: DIR 0 writes the register from Gg, DIR 1 reads it. -/
def execAmov (n : Nat) (g : BitVec 5) (kind : BitVec 2) (i : BitVec 3) (dir : Bool) (s : State) : Out :=
  regInstr n (fun r => if dir then gW r g (aR r kind i) else aW r kind i (gR r g)) s
/-- AMOD: AD_a updated by MD_a or the immediate. -/
def execAmod (n : Nat) (a : BitVec 3) (src : Bool) (imm : BitVec 16) (s : State) : Out :=
  guarded n (amodOk src imm) (regInstr n (fun r => postMod r a (if src then imm.toInt else (aR r 3 a).toInt))) s

/-- An undefined word is refused under cause 5 with the PC (15 R441, 14 R426). -/
def execUndefinedInstruction (n : Nat) (s : State) : Out :=
  undefinedWord n s

end Sys2Proof.Machine
end

