-- ==== Sys2Proof/Machine/MarrowKernel.lean ====
section
/-!
DEFINITION. Sys2Proof/Machine/MarrowKernel.lean: what the kernel calls of 14 R429-R431 share (16
R468-R494, 11 R329-R330).
-/
namespace Sys2Proof.Machine

/-- Write G1. -/
def setG1 (d : Dev) (t v : Nat) : Dev := modRegs d t (fun r => gW r 1 (BitVec.ofNat 32 v))

/-- G register n of thread t as a number. -/
def gArg (d : Dev) (t : Nat) (n : BitVec 5) : Nat := (gR (thr d t).regs n).toNat

/-- A call completes with result v. -/
def kret (d : Dev) (n t v : Nat) : Dev := complete (setG1 d t v) n t

/-- A kernel call refused under cause 5 (14 R426): kind 2 with the PC; it returns 0. DEDUCED: log entry 39. -/
def refuseCall (d : Dev) (n t : Nat) : Dev := kret (refuse d n 2 (thr d t).regs.pc.toNat) n t 0

/-- The dispatch of a thread that is no audio thread ends (14 R430, 15 R443): the loop step applies, the core is
free and a held flow is released (16 R485). -/
def endDispatch (d : Dev) (n t : Nat) : Dev :=
  releaseFlow (coreIdle (modRegs d t (fun r => (loopStep r).1)) n) t

/-- The DONE_CNT signal of a thread (16 R476), its DONE_CNT as version v has it. -/
def signalDone (d : Dev) (v : Version) (t : Nat) : Dev :=
  if vGet v 0x5801 0x0D t = 0xFFFF then d else signalCnt d (vGet v 0x5801 0x0D t)

/-- Whether a dispatch is an audio thread's. -/
def inAudio (d : Dev) (n : Nat) : Bool := (coreOf d n).txn.isSome

/-- The thread's grant covers counter c (16 R472). -/
def counterGranted (d : Dev) (t c : Nat) : Bool := tf d 0x08 t ≤ c && c < tf d 0x08 t + tf d 0x09 t

/-- Insert an entry of a delay list by ascending expiry, behind equal ones (16 R483). -/
def delayInsert (d : Dev) (l e t : Nat) : Dev :=
  { d with stalk := { d.stalk with
    delays := mmod [] d.stalk.delays l (insertBy (fun a b => decide (a.1 < b.1)) (e, t)) } }

/-- TICK_NOW. -/
def tickNow (d : Dev) : Nat := oGet d 0x5800 0x20

/-- Expiry of a SLEEP of us µs by a thread of list l (16 R483). -/
def expiryOf (d : Dev) (l us : Nat) : Nat :=
  let p := rs d (0x5E00 + l) 0x01
  ceilDiv (tickNow d + us) p * p

/-- The thread may use queue q (16 R494). -/
def queueGranted (d : Dev) (t q : Nat) : Bool :=
  q < 4096 && (q = 2048 + t || (tf d 0x0A t ≤ q && q < tf d 0x0A t + tf d 0x0B t)) &&
  (qKind d q = 3 || qKind d q = 4)

/-- A thread stalls for room in queue q (16 R493). -/
def stallFor (d : Dev) (t q : Nat) (x : Stall) : Dev :=
  let d := bump (fullWait d q) 0x5800 0x23
  let d := modQueue d q (fun y => { y with waiters := y.waiters ++ [t] })
  modThr d t (fun y => { y with st := .stalled, stall := some x })

/-- The checks of R329 in their order, for a post into part p at SIX six. -/
def postCode (d : Dev) (p six u0 : Nat) : Nat :=
  if mediaRuns d = false then 5
  else if 255 < p then 4
  else if umpClass u0 = none then 3
  else if partOn d p = false then 2
  else if sixNow d + horizon d < six then 1
  else 0

/-- A stalled producer's item has room: it enters and the thread goes on (16 R493, 11 R330); a POST of a frozen core
enters nothing (11 R331). DESIGN CHOICE: log entry 59. -/
def resumePut (d : Dev) (q t : Nat) : Dev :=
  let n := tf d 0x03 t
  match (thr d t).stall with
  | some (.put _ v) =>
    let d := modThr (qFill d q v) t (fun x => { x with st := .running, stall := none })
    kret d n t (qCount d q)
  | some (.post it) =>
    let d := modThr d t (fun x => { x with st := .running, stall := none })
    if coreFrozen d n then
      let (k, d) := takeFree d
      kret d n t (Config.freeNat k)
    else kret (evEnterAll d false [it]) n t 0
  | _ => d

/-- Posts still stalled when the media stops return 5 and enter nothing (11 R330). -/
def endStalledPost (d : Dev) (t : Nat) : Dev :=
  match (thr d t).stall with
  | some (.post it) =>
    let d := modQueue d it.part (fun x => { x with waiters := x.waiters.filter (· ≠ t) })
    kret (modThr d t (fun x => { x with st := .running, stall := none })) (tf d 0x03 t) t 5
  | _ => d


end Sys2Proof.Machine
end

