-- ==== Sys2Proof/Machine/StalkHost.lean ====
section
/-!
DEFINITION. Sys2Proof/Machine/StalkHost.lean: what hosts, boundaries and the tick do to Stalk (16 R466-R500): creating,
disabling, suspending and resuming threads, LEVEL, KICK, CNT_VALUE, delay expiry, producers that resume, FLUSH, and the
constant area of a core (14 R422).
-/
namespace Sys2Proof.Machine

/-! ### Threads that leave what they wait for -/

/-- Remove thread t from the queue or flow it is stalled on. -/
def leaveStall (d : Dev) (t : Nat) : Dev :=
  let out (q : Nat) : Dev := modQueue d q (fun x => { x with waiters := x.waiters.filter (· ≠ t) })
  match (thr d t).stall with
  | some (.put q _) => out q
  | some (.post it) => out it.part
  | some (.flow _ _) =>
    (d.stalk.flows.map (·.1)).foldl (fun d f => modFlow d f (fun x => { x with stalled := x.stalled.filter (· ≠ t) })) d
  | none => d

/-- Remove thread t from the delay lists. -/
def leaveDelays (d : Dev) (t : Nat) : Dev :=
  let m := (d.stalk.delays.map (fun c => (c.1, c.2.filter (fun e => e.2 ≠ t)))).filter (fun c => c.2 ≠ [])
  { d with stalk := { d.stalk with delays := m } }

/-- A core in a dispatch of thread t drops it: its transaction leaves no trace and its declared channels are
decremented (R475). -/
def dropDispatch (t : Nat) (d : Dev) (n : Nat) : Dev :=
  let c := coreOf d n
  if c.run = some t then
    let d := match c.txn with
      | some x => undeclare x.window false t d
      | none => d
    coreIdle d n
  else d

/-- Thread t leaves every list, counter, queue, flow and core, and is DISABLED. -/
def dropThread (d : Dev) (t : Nat) : Dev :=
  let d := leaveStall (leaveDelays (leaveLists d t) t) t
  let d := (rangeFrom 0 20).foldl (dropDispatch t) d
  let d := releaseFlow d t
  modThr d t (fun x => { x with
    st := .disabled, was := .disabled, woke := false, waitOn := none, gate := 0, releases := [], stall := none })

/-- Creation of a Marrow thread at a switch (R466, R468): registers initial, PC := ENTRY. -/
def createThread (d : Dev) (t : Nat) : Dev :=
  let d := dropThread d t
  let r := Regs.init (tf d 0x04 t)
  let d := modThr d t (fun x => { x with regs := r, save := r, bank := none, saveBank := none, due := none, conf := false })
  if tAudio d t then settle d t .idle else kernelRest d t true

/-- A switch at a boundary sets ENABLE of thread t to 0 (R497); `audio` is its KIND before the switch. -/
def disableThread (d : Dev) (audio : Bool) (t : Nat) : Dev :=
  let x := thr d t
  if x.st = .running ∨ x.st = .stalled then
    if audio then modThr d t (fun x => { x with releases := [] }) else d
  else dropThread d t

/-! ### Cores whose threads stop and resume (R498, 04 R143, R144) -/

/-- Threads bound to core n in the active version. -/
def threadsOf (d : Dev) (n : Nat) : List Nat := threadsWhere d (fun t _ => tf d 0x03 t = n)

/-- A thread of a stopping core is SUSPENDED and keeps the cause it waits for; one in a dispatch goes on to its end. -/
def suspendThread (d : Dev) (t : Nat) : Dev :=
  let x := thr d t
  match x.st with
  | .running | .stalled | .suspended | .disabled => d
  | _ => modThr (leaveLists d t) t (fun x => { x with st := .suspended, was := x.st, woke := false })

/-- The threads of core n stop. -/
def stopCore (d : Dev) (n : Nat) : Dev :=
  (threadsOf d n).foldl suspendThread (modCore d n (fun c => { c with stopped := true }))

/-- A suspended thread resumes: READY when its cause has occurred, else in the state it was in; an audio thread from its
save record (04 R144). -/
def resumeThread (d : Dev) (t : Nat) : Dev :=
  let x := thr d t
  let d := if x.st = .suspended ∧ tAudio d t then modRegs d t (fun _ => x.save) else d
  if x.st ≠ .suspended then d
  else if x.woke ∨ x.was = .ready then
    makeReady (modThr d t (fun x => { x with st := .idle, was := .idle, woke := false })) t
  else modThr d t (fun x => { x with st := x.was, was := .idle })

/-- The threads of core n resume. -/
def resumeCore (d : Dev) (n : Nat) : Dev :=
  (threadsOf d n).foldl resumeThread (modCore d n (fun c => { c with stopped := false }))

/-! ### Writes of hosts -/

/-- LEVEL of thread t := v (R480): a ready thread moves to the tail of its new list. -/
def setLevel (d : Dev) (t v : Nat) : Dev :=
  let d := oSet d 0x5801 0x05 v t
  schedule (if (thr d t).st = .ready then enterList (leaveLists d t) t else d)

/-- KICK of thread t (R468). -/
def kick (d : Dev) (t : Nat) : Dev :=
  if (thr d t).st = .idle ∧ tAudio d t = false then schedule (makeReady d t) else d

/-- CNT_VALUE of counter c := v (R470). -/
def setCnt (d : Dev) (c v : Nat) : Dev := schedule (loadCnt d c v)

/-- The first producer stalled for room in queue q goes on when there is room (R493). -/
def resumeProducer (d : Dev) (q : Nat) : Dev :=
  match (queueOf d q).waiters with
  | [] => d
  | t :: r =>
    if 0 < qRoom d q then resumePut (modQueue d q (fun x => { x with waiters := r })) q t else d

/-- Every producer that finds room goes on. -/
def resumeProducers (d : Dev) (q : Nat) : Dev :=
  schedule ((queueOf d q).waiters.foldl (fun d _ => resumeProducer d q) d)

/-- FLUSH of queue q (R496). -/
def flushQueue (d : Dev) (q : Nat) : Dev := resumeProducers (qFlush d q) q

/-- TAKE on queue q (R495): the head item is removed; on an empty queue nothing happens. -/
def takeHead (d : Dev) (q : Nat) : Dev := dropHead d q

/-! ### Delay lists (R483) -/

/-- A thread that a delay list made ready enters its list ahead of those that other causes made ready (R478). -/
def enterFirst (d : Dev) (t : Nat) : Dev :=
  if d.stalk.woken.contains t then
    enterList { d with stalk := { d.stalk with woken := d.stalk.woken.filter (· ≠ t) } } t
  else d

/-- The expired entries of list l leave in order and their threads become READY. -/
def expireList (now : Nat) (d : Dev) (l : Nat) : Dev :=
  let es := mget [] d.stalk.delays l
  let out := es.filter (fun e => e.1 ≤ now)
  let d := { d with stalk := { d.stalk with delays := mput [] d.stalk.delays l (es.filter (fun e => ¬ e.1 ≤ now)) } }
  let d := bump d (0x5E00 + l) 0x04 out.length
  out.foldl (fun d e => enterFirst (makeReady d e.2) e.2) d

/-- The tick `now`: lists 0 to 3 are taken in turn, and a scheduler step follows (R478, R483). -/
def tickAt (d : Dev) (now : Nat) : Dev :=
  schedule ((rangeFrom 0 4).foldl (expireList now) (oSet d 0x5800 0x20 now))

/-- Ticks up to `now` at which an entry of a delay list expires, in order. -/
def expiryTicks (d : Dev) (now : Nat) : List Nat :=
  (sortBy (fun a b => decide (a < b)) ((d.stalk.delays.flatMap (fun c => c.2.map (·.1))).filter (· ≤ now))).eraseDups

/-- TICK_NOW counts on to `now` (R482): each tick at which an entry expires is taken in turn. -/
def advanceTick (d : Dev) (now : Nat) : Dev :=
  if tickNow d < now then oSet ((expiryTicks d now).foldl tickAt d) 0x5800 0x20 now else d

/-- The tick of the Link cycle at hand: 125 to a cycle (R23, R482). -/
def cycleTick (d : Dev) : Nat := 125 * d.cycles

/-! ### The constant area (14 R422) -/

/-- Key of a heap item: a thread's save record, or block j (13 R393). -/
def heapKey (thread : Bool) (n : Nat) : Nat := if thread then n else 4096 + n

/-- Base of heap block j in a version. -/
def blockBase (v : Version) (j : Nat) : Option Nat := mfind v.heap (heapKey false j)

/-- The constant block of core n holds a poisoned word. -/
def constBad (d : Dev) (n : Nat) : Bool :=
  match blockBase d.ver.active (rs d (0x5003 + 0x20 * n) 0x1A) with
  | some b => constLen d n != 0 && poisonedWithin d b (constLen d n)
  | none => false

/-- Root loads the constant area of core n from its heap block. -/
def loadConst (d : Dev) (n : Nat) : Dev :=
  let len := constLen d n
  match blockBase d.ver.active (rs d (0x5003 + 0x20 * n) 0x1A) with
  | some b =>
    if len = 0 then d
    else bump (modCore d n (fun c => { c with mem := mwrite c.mem 0 (gourdBytes d b len) })) 0x5300 0x04
  | none => d

end Sys2Proof.Machine
end

