-- ==== Sys2Proof/Machine/Faults.lean ====
section
/-!
DEFINITION. Sys2Proof/Machine/Faults.lean: units, spares and recovery (22 R648-R670, 14 R432): takeover of a position
or a core, loss without a spare, retirement, self-tests, restore.
-/
namespace Sys2Proof.Machine

/-! ### Units -/

/-- Code of the first unit and units per quadrant of a unit's kind. -/
def isPod (u : Nat) : Bool := u < 36
def isCore (u : Nat) : Bool := 0x40 ≤ u && u < 0x54
def isUnit (u : Nat) : Bool := isPod u || isCore u

/-- Quadrant of a Pod or a core (01 R14). -/
def quadOf (u : Nat) : Nat := if isPod u then u / 9 else (u - 0x40) / 5

/-- Units of the kind of u in a quadrant, ascending. -/
def quadUnits (pod : Bool) (q : Nat) : List Nat :=
  if pod then rangeFrom (9 * q) 9 else rangeFrom (0x40 + 5 * q) 5

/-- Set UNIT_STATE. -/
def setUnit (d : Dev) (u st : Nat) : Dev := { d with units := mput 0 d.units u st }

/-- The spare that a quadrant uses first (R665). -/
def spareIn (d : Dev) (pod : Bool) (q : Nat) : Option Nat := (quadUnits pod q).find? (usable d)

/-- A spare enters service; a self-test of it stops. DEDUCED: log entry 34. -/
def enterService (d : Dev) (u : Nat) : Dev :=
  let d := setUnit d u 0
  { d with spares := { d.spares with tests := d.spares.tests.filter (fun x => x.1 ≠ u) } }

/-- The position that a Pod serves. -/
def positionOf (d : Dev) (p : Nat) : Option Nat := (rangeFrom 0 36).find? (fun o => podOf d o = some p)

/-- Pod p, or none, serves position o. -/
def setServe (d : Dev) (o : Nat) (p : Option Nat) : Dev :=
  { d with alloc := { d.alloc with serve := setNth d.alloc.serve o p } }

/-! ### VDD_CORE at a takeover (R655, 23 R692) -/

/-- Send a voltage request: VDD_REQ with its step counts (23 R694). -/
def requestVdd (d : Dev) (mv : Nat) : Dev :=
  let old := oGet d 0x8220 0x03
  let d := oSet d 0x8220 0x03 mv
  if old < mv then bump d 0x8220 0x0A else if mv < old then bump d 0x8220 0x0B else d

/-- A takeover requests 880 mV, until the end of the window after its first seal. -/
def holdVdd (d : Dev) (u : Nat) : Dev :=
  let d := requestVdd d 880
  { d with spares := { d.spares with taking := d.spares.taking ++ [u] } }

/-- The hold of a takeover ends with the window at hand and the next; another takeover's goes on by itself. -/
def holdEnds (d : Dev) : Dev := { d with ctl := { d.ctl with hold := some (d.media.block + 1) } }

/-- The request at a takeover by core u: with no enabled audio thread among ts there is no seal to wait for.
DEDUCED: log entry 33. -/
def takeoverVdd (d : Dev) (u : Nat) (ts : List Nat) : Dev :=
  if ts.any (fun t => tAudio d t && (tOn d t || !(thr d t).releases.isEmpty)) then holdVdd d u
  else holdEnds (requestVdd d 880)

/-- A unit's first seal lands, or it fails: its takeover is over (R655, R662). DEDUCED: log entry 33. -/
def takeoverSealed (d : Dev) (u : Nat) : Dev :=
  if d.spares.taking.contains u then
    holdEnds { d with spares := { d.spares with taking := d.spares.taking.filter (· ≠ u) } }
  else d

/-! ### Pods (R657, R660) -/

/-- The transactions that position o has not sealed. -/
def podWork (d : Dev) (o : Nat) : List PodTxn := d.alloc.podTxns.filter (fun x => x.position = o)

/-- The first block that a Pod taking position o over now computes: that of its oldest unsealed window, or of the window
at hand. -/
def firstBlock (d : Dev) (o : Nat) : Nat :=
  (((podWork d o).map (·.window)).foldl min d.media.block) + 2

/-- Pod s takes over position o from Pod p (R653, R657): its unsealed work stays and is sealed by s, without the voices
whose checkpoint record is poisoned (R652), and it is checked in its window as every Pod is (R650). DEDUCED: log entries 33, 57. -/
def podTakeover (d : Dev) (o p s : Nat) : Dev :=
  let d := loseBad d (fun x => x == o) (firstBlock d o)
  let d := setServe (enterService d s) o (some s)
  let d := oSet (setUnit d p 2) (0x8100 + p) 0x04 s
  let d := { d with alloc := { d.alloc with podTxns := d.alloc.podTxns.map (fun x =>
    if x.position = o then { x with held := none, check := x.check && d.alloc.slots.any (fun y => y.1 / 32 = o) } else x) } }
  holdVdd d s

/-- The unsealed work of position o is lost (R660): its declared channels are decremented, its blocks are missing. No seal
lands: the items that it has read stay in their queues (03 R76). -/
def podLoss (d : Dev) (o : Nat) : Dev :=
  let ws := (podWork d o).map (·.window)
  let d := { d with alloc := { d.alloc with podTxns := d.alloc.podTxns.filter (fun x => x.position ≠ o) }
                    gourd := { d.gourd with missing := ws ++ d.gourd.missing } }
  ws.foldl (fun d w => undeclare w true o d) d

/-- A Pod in service fails with a record of the given kind (R657, R660, R662); in capacity mode there is no spare (01 R16). A loss
releases counters, so a scheduler step follows (16 R478); its record waits, while running, for its VOICES_LOST. -/
def podFail (d : Dev) (p kind detail addr : Nat) : Dev :=
  match positionOf d p with
  | none => d
  | some o =>
    let spare := if d.spares.taking.contains p || rs d 0x4C10 0x02 == 1 then none else spareIn d true (quadOf p)
    let d := takeoverSealed d p
    match spare with
    | some s =>
      let d := bump (podTakeover d o p s) 0x8000 0x05
      addFault d kind p 1 s 0 detail addr
    | none =>
      let r := draftFault d kind p 2 0xFF 0 detail addr
      let d := holdFault (schedule (podLoss (setServe (setUnit d p 2) o none) o)) (some o) r
      if mediaRuns d then d else fillLost d []

/-! ### Cores (R658, R661, 14 R432) -/

/-- Keys of a version moved from core n to core s: its configuration objects are copied and threads rebound
(R432, 16 R499). -/
def moveCoreIn (n s : Nat) (v : Version) : Version :=
  let idx (k : Nat) : Nat := k / 131072 / 256
  let base := 0x5000 + 0x20 * n
  let cfg := v.vals.filter (fun c => base ≤ idx c.1 ∧ idx c.1 ≤ base + 4)
  let kept := v.vals.filter (fun c => ¬ (0x5000 + 0x20 * s ≤ idx c.1 ∧ idx c.1 ≤ 0x5004 + 0x20 * s))
  let rebound := kept.map (fun c => if c.1 / 131072 = 0x580103 ∧ c.2 = n then (c.1, s) else c)
  let moved := cfg.map (fun c => (c.1 - base * 256 * 131072 + (0x5000 + 0x20 * s) * 256 * 131072, c.2))
  { v with vals := moved.foldl (fun m c => mins m c.1 c.2) rebound }

/-- Ready threads enter the lists that the active version now gives them, at the tail (16 R477). -/
def relist (d : Dev) (ts : List Nat) : Dev :=
  ts.foldl (fun d t => if (thr d t).st = .ready then enterList (leaveLists d t) t else d) d

/-- The ready threads of core n keep the order of their lists on core s (16 R477). -/
def moveLists (d : Dev) (n s : Nat) : Dev :=
  let put (m : AMap (List Nat)) (l : Nat) : AMap (List Nat) :=
    mmod [] (mmod [] m (16 * s + l) (· ++ mget [] m (16 * n + l))) (16 * n + l) (fun _ => [])
  { d with stalk := { d.stalk with ordinary := (rangeFrom 0 16).foldl put d.stalk.ordinary } }

/-- Core s takes the configuration, the program banks, the constant area, the threads and the freeze of core n. -/
def moveCore (d : Dev) (n s : Nat) : Dev :=
  let c := coreOf d n
  let d := { d with ver := { d.ver with
    active := moveCoreIn n s d.ver.active
    previous := d.ver.previous.map (moveCoreIn n s)
    staging := d.ver.staging.map (moveCoreIn n s)
    before := d.ver.before.map (fun x => (x.1, moveCoreIn n s x.2)) } }
  let d := modCore d s (fun x => { x with progA := c.progA, progB := c.progB, stopped := c.stopped })
  let d := modCore d n (fun x => { x with stopped := false })
  let f := oGet d 0x1020 (n + 1)
  let d := oSet (oSet d 0x1020 (s + 1) f) 0x1020 (n + 1) 0
  loadConst (moveLists d n s) s

/-- Transactions of thread t on core n that have not sealed, oldest first. -/
def openTxns (c : Core) : List Txn :=
  c.ended ++ (match c.txn with
    | some x => [x]
    | none => [])

/-- An audio thread in a dispatch of a failed core is dispatched again for the same blocks, each in its own bank, from its
save record. -/
def redoAudio (d : Dev) (xs : List Txn) (t : Nat) : Dev :=
  let mine := xs.filter (fun x => x.thread = t)
  if mine = [] then d
  else
    let d := releaseFlow d t
    let d := modThr d t (fun y => { y with
      regs := y.save, bank := y.saveBank, conf := false, stall := none, gate := 0
      releases := mine.map (fun x => (x.window, x.bank)) ++ y.releases.filter (fun r => ¬ mine.any (fun x => x.window = r.1)) })
    settle (leaveLists d t) t .ready

/-- The save record of thread t is poisoned. -/
def saveBad (d : Dev) (t : Nat) : Bool :=
  match mfind d.ver.active.heap (heapKey true t) with
  | some b => poisonedWithin d b 1024
  | none => false

/-- An audio thread whose save record a replacement core cannot read has the registers of its creation (R652, 16 R466):
the block it computes is voided, that of its oldest release, or of window `next`. DEDUCED: log entry 57. -/
def lostSave (next : Nat) (xs : List Txn) (d : Dev) (t : Nat) : Dev :=
  if (tOn d t || xs.any (fun x => x.thread = t)) && tAudio d t && saveBad d t then
    let ws := (xs.filter (fun x => x.thread = t)).map (·.window) ++ (thr d t).releases.map (·.1)
    let r := Regs.init (tf d 0x04 t)
    voidAt (modThr d t (fun x => { x with regs := r, save := r, saveBank := none, due := none })) 0 ((ws.head?.map (fun w => ws.foldl min w)).getD next + 2)
  else d

/-- A core in service fails under the watchdog and a spare takes over (R658). A thread that a switch has disabled in a dispatch is
dispatched again, if it is an audio thread, for the block that it completes (R497), and else is DISABLED.
DEDUCED: log entry 33. -/
def coreTakeover (d : Dev) (n s : Nat) : Dev :=
  let xs := openTxns (coreOf d n)
  let d := enterService d (0x40 + s)
  let d := oSet (setUnit d (0x40 + n) 2) (0x8140 + n) 0x04 (0x40 + s)
  let d := modCore d n (fun c => { c with run := none, pbuf := [], txn := none, ended := [] })
  let d := moveCore d n s
  let ts := threadsOf d s
  let d := ts.foldl (lostSave (d.media.block + 1) xs) d
  let d := ts.foldl (fun d t => if tAudio d t then redoAudio d xs t else d) d
  let ks := ts.filter (fun t => tOn d t && !tAudio d t)
  let d := (ts.filter (fun t => !tOn d t && !tAudio d t)).foldl dropThread d
  let d := bump (ks.foldl createThread d) 0x8000 0x09 ks.length
  let d := takeoverVdd d (0x40 + s) ts
  schedule (bump d 0x8000 0x05)

/-- A core fails with no spare (R661). DEDUCED: log entry 33. -/
def coreLoss (d : Dev) (n : Nat) : Dev :=
  let due := d.gourd.declared.filter (fun x => !x.pod && tf d 0x03 x.name = n)
  let ws := ((openTxns (coreOf d n)).map (·.window) ++ due.map (·.window)).eraseDups
  let d := { d with gourd := { d.gourd with
    declared := d.gourd.declared.filter (fun x => ¬ (!x.pod && tf d 0x03 x.name = n)), missing := ws ++ d.gourd.missing } }
  let d := due.foldl (fun d x => signalCnt d x.ch) d
  let d := setUnit d (0x40 + n) 2
  let run := (coreOf d n).run
  let d := modCore d n (fun c => { c with run := none, pbuf := [], txn := none, ended := [] })
  let d := match run with
    | some t => if tOn d t then modThr d t (fun x => { x with st := .suspended, was := .idle, woke := false }) else dropThread d t
    | none => d
  schedule (((threadsOf d n).filter (fun t => !tAudio d t)).foldl suspendThread d)

/-- A core in service fails under the watchdog (R658, R661, R662). An error in the copy leaves the spare (14 R432). -/
def coreFail (d : Dev) (n : Nat) : Dev :=
  let u := 0x40 + n
  let spare := if d.spares.taking.contains u || constBad d n then none else spareIn d false (quadOf u)
  let d := takeoverSealed d u
  match spare with
  | some s => addFault (coreTakeover d n (s - 0x40)) 0x01 u 1 s 0 0 0
  | none => addFault (coreLoss d n) 0x01 u 2 0xFF 0 0 0

/-- A core is in a dispatch and does not wait (R649): a block whose dispatch has ended waits for its seal alone. -/
def coreBusy (d : Dev) (n : Nat) : Bool := (coreOf d n).run.any (fun t => (thr d t).st == .running)

/-- A Pod holds work: occupied slots or lanes and an unsealed window (R649). -/
def podBusy (d : Dev) (p : Nat) : Bool :=
  match positionOf d p with
  | some o => (podWork d o).any (fun x => x.held.isNone)
  | none => false

/-- The watchdog fires for a unit. -/
def watchdog (d : Dev) (u : Nat) : Dev :=
  if isPod u && unitSt d u = 0 && podBusy d u then podFail d u 0x01 0 0
  else if isCore u && unitSt d u = 0 && coreBusy d (u - 0x40) then coreFail d (u - 0x40)
  else d

/-! ### Retirement and restore at a boundary (R663, R667) -/

/-- A retiring unit hands over for window `next`: a Pod first seals the window before its boundary, at the latest by the boundary after
it; a core first completes its dispatches in progress and begins no other, and one whose copy meets an error stays in
service. DEDUCED: log entries 33, 57. -/
def retireUnit (next : Nat) (d : Dev) (u : Nat) : Dev :=
  let gone (d : Dev) : Dev := { d with spares := { d.spares with
    retire := d.spares.retire.filter (· ≠ u), handing := d.spares.handing.filter (· ≠ u) } }
  match spareIn d (isPod u) (quadOf u) with
  | none => gone d
  | some s =>
    let wait (d : Dev) : Dev := { d with spares := { d.spares with handing := d.spares.handing.filter (· ≠ u) ++ [u] } }
    if unitSt d u ≠ 0 then gone d
    else if isPod u then match positionOf d u with
      | some o =>
        let late := next = d.media.block && d.spares.handing.contains u
        if !late && (podWork d o).any (fun x => x.window < d.media.block) then wait d else gone (podTakeover d o u s)
      | none => gone d
    else
      let n := u - 0x40
      let c := coreOf d n
      if c.run.isSome ∨ c.ended ≠ [] then wait d
      else if constBad d n then gone d
      else
        let d := oSet (setUnit (enterService d s) u 2) (0x8100 + u) 0x04 s
        let d := takeoverVdd (moveCore d n (s - 0x40)) s (threadsOf d n)
        gone ((threadsOf d (s - 0x40)).foldl (lostSave next []) d)

/-- Every unit that retires. DEDUCED: log entries 30, 33. -/
def retireAll (d : Dev) : Dev := d.spares.retire.foldl (retireUnit d.media.block) d

/-- Retiring units past their boundary hand over: a core once its last dispatch has ended and sealed, a Pod once it has sealed.
DEDUCED: log entry 33. -/
def handOver (d : Dev) : Dev :=
  if d.spares.handing.isEmpty then d else schedule (d.spares.handing.foldl (retireUnit (d.media.block + 1)) d)

/-- Quadrant of a position: eight for each quadrant, then one more in capacity mode (10 R278). -/
def posQuad (o : Nat) : Nat := if o < 32 then o / 8 else o - 32

/-- A position out of service is taken by a spare of its quadrant (R667). -/
def restorePos (d : Dev) (o : Nat) : Dev :=
  if (podOf d o).isSome then d
  else match spareIn d true (posQuad o) with
    | some s => setServe (enterService d s) o (some s)
    | none => d

/-- RESTORE takes effect. DEDUCED: log entry 30. -/
def restoreAll (d : Dev) : Dev :=
  if d.spares.restore then
    let d := (rangeFrom 0 (posConfigured d)).foldl restorePos d
    { d with spares := { d.spares with restore := false } }
  else d

/-! ### Self-tests (R664-R666) -/

/-- A self-test of a unit begins. DEDUCED: log entry 34. -/
def startTest (periodic : Bool) (d : Dev) (u : Nat) : Dev :=
  let d := setUnit d u 3
  { d with spares := { d.spares with tests := d.spares.tests ++ [(u, periodic)] } }

/-- A self-test ends with a READMIT record (R664, R666, R670). -/
def endTest (d : Dev) (u : Nat) (pass : Bool) : Dev :=
  match d.spares.tests.find? (fun x => x.1 = u) with
  | none => d
  | some _ =>
    let d := { d with spares := { d.spares with tests := d.spares.tests.filter (fun y => y.1 ≠ u) } }
    let d := bump (setUnit d u (if pass then 1 else 4)) (0x8100 + u) 0x07
    if pass then addFault d 0x0A u 7 0xFF 0 0 0 else addFault d 0x0A u 8 0xFF 0 1 0

/-- RETIRE of a unit is answered BUSY unless it is in service and its quadrant has a spare; a Pod re-admitted in capacity mode is one
(01 R16). DESIGN CHOICE: log entry 33. -/
def retireOk (d : Dev) (u : Nat) : Bool := unitSt d u = 0 && (spareIn d (isPod u) (quadOf u)).isSome

/-- READMIT of a unit is answered BUSY unless it is out of service or failed its test. -/
def readmitOk (d : Dev) (u : Nat) : Bool := unitSt d u = 2 || unitSt d u = 4

end Sys2Proof.Machine
end

