-- ==== Sys2Proof/Machine/Seal.lean ====
section
/-!
DEFINITION. Sys2Proof/Machine/Seal.lean: seals (03 R74-R77, R80, R81, R84; 02 R36, R37, R63-R65; 16 R475, R476, R491;
22 R650, R651): landing of Pod and core transactions, the slack of a unit, the cross-check.
-/
namespace Sys2Proof.Machine

/-! ### Slack (02 R63-R65) -/

/-- T_blk in fine-clock ticks. -/
def blockTicks (d : Dev) : Nat := blockLen d * fineHz (rs d 0x2010 0x01) / engineRate d

/-- Slack of a commit that lands a number of ticks before the deadline. -/
def slackOf (d : Dev) (ticks : Int) : Int := sat (32768 * ticks / (blockTicks d : Nat)) 16

/-- Units in service, ascending by code. -/
def unitsIn (d : Dev) : List Nat :=
  ((rangeFrom 0 36).filter (fun p => (positionOf d p).isSome)) ++ (rangeFrom 0x40 20).filter (fun u => unitSt d u = 0)

/-- Whether a unit has unsealed work of window w. -/
def unsealed (d : Dev) (w u : Nat) : Bool :=
  if isPod u then match positionOf d u with
    | some o => (podWork d o).any (fun x => x.window = w && x.held.isNone)
    | none => false
  else (openTxns (coreOf d (u - 0x40))).any (fun x => x.window = w)

/-- Slack of unit u for window w: its last commit, 32,767 with no work, −1 while its work is unfinished. -/
def unitSlack (d : Dev) (w u : Nat) : Int :=
  if unsealed d w u then -1 else (mfind d.ctl.slack (256 * w + u)).getD 32767

/-- Write the slack objects for the last completed window w (R65). Those of a unit out of service keep their values.
DESIGN CHOICE: log entry 58. -/
def showSlack (d : Dev) (w : Nat) : Dev :=
  let us := unitsIn d
  let d := us.foldl (fun d u =>
    if isPod u then oSetI d 0x2050 (u + 1) 16 (unitSlack d w u) else oSetI d 0x2051 (u - 0x40 + 1) 16 (unitSlack d w u)) d
  match bestBy (fun a b => decide (unitSlack d w a < unitSlack d w b)) us with
  | none => d
  | some u =>
    let s := unitSlack d w u
    let d := oSetI (oSet d 0x2040 0x02 u) 0x2040 0x01 16 s
    if s < sgn 16 (oGet d 0x2040 0x03) then oSetI d 0x2040 0x03 16 s else d

/-- A unit's commit of window w landed with a slack; a landing in the margin corrects the objects. -/
def putSlack (d : Dev) (w u : Nat) (s : Int) : Dev :=
  let d := { d with ctl := { d.ctl with slack := mins d.ctl.slack (256 * w + u) s } }
  if d.media.block = w + 1 then showSlack d w else d

/-! ### Pods -/

/-- Remove a Pod transaction. -/
def dropPodTxn (d : Dev) (x : PodTxn) : Dev :=
  { d with alloc := { d.alloc with podTxns := d.alloc.podTxns.filter (fun y => ¬ (y.window = x.window ∧ y.position = x.position)) } }

/-- The status words of a Pod transaction land (10 R281): those of the latest three blocks are kept. -/
def landStatus (l : List (Nat × VStatus)) (d : Dev) : Dev :=
  let put (v : Voice) : Voice := match l.find? (fun x => x.1 = v.serial) with
    | some x => { v with status := (x.2 :: v.status).take 3 }
    | none => v
  { d with alloc := { d.alloc with
    slots := d.alloc.slots.map (fun x => (x.1, put x.2)), lanes := d.alloc.lanes.map (fun x => (x.1, put x.2)) } }

/-- A Pod's seal lands, its status words and the reads of its voice event queues with it, its checkpoint records at the next boundary (R74, R77, R80, R83); one that lands after the read is discarded (R37). -/
def landPod (d : Dev) (x : PodTxn) (u : Nat) (slack : Int) : Dev :=
  let d := dropPodTxn d x
  if x.window + 2 ≤ d.media.block then takeoverSealed d u
  else
    let d := landStatus x.status (x.reads.foldl (fun d r => voiceRetire d r.1 r.2) d)
    let d := if d.media.block = x.window + 1 then bump d 0x2040 0x04 else d
    let d := noteRecord (x.adds.foldl (fun d a => landAdd d x.window true x.position a.1 a.2) d) x.position x.window
    schedule (takeoverSealed (putSlack d x.window u slack) u)

/-- SEAL of a Pod: its oldest unsealed window lands, or is held while a check is to come (R651). -/
def sealPod (d : Dev) (u : Nat) (ticks : Int) : Dev :=
  match positionOf d u with
  | none => d
  | some o => match (podWork d o).filter (fun x => x.held.isNone) with
    | [] => d
    | x :: _ =>
      let s := slackOf d ticks
      if x.check && d.media.block == x.window then
        { d with alloc := { d.alloc with podTxns := d.alloc.podTxns.map (fun y =>
          if y.window = x.window ∧ y.position = o then { y with held := some s } else y) } }
      else landPod d x u s

/-! ### Cores -/

/-- Room that a staged operation list needs in queue q. -/
def putsInto (ops : List StagedOp) (q : Nat) : Nat :=
  (ops.filter (fun o => match o with
    | .put p _ => p = q
    | .post it => it.part = q
    | .signal _ => false)).length

/-- Queues that a staged operation list puts into. -/
def putQueues (ops : List StagedOp) : List Nat :=
  (ops.filterMap (fun o => match o with
    | .put p _ => some p
    | .post it => some it.part
    | .signal _ => none)).eraseDups

/-- Queues without room for a seal (R330); the items that the seal retires leave first. DEDUCED: log entry 38. -/
def fullFor (d : Dev) (x : Txn) : List Nat :=
  (putQueues x.ops).filter (fun q => qRoom d q + mget 0 x.reads q < putsInto x.ops q)

/-- One staged operation enters. -/
def enterOp (d : Dev) (o : StagedOp) : Dev :=
  match o with
  | .put q v => qFill d q v
  | .post it => evEnterAll d false [it]
  | .signal c => signalCnt d c

/-- The effect of a core's seal that is not discarded. -/
def landTxn (d : Dev) (x : Txn) : Dev :=
  let d := x.reads.foldl (fun d r => qRetire d r.1 r.2) d
  let d := x.ops.foldl enterOp d
  let d := if x.writes = [] ∧ x.adds = [] then d
    else { d with gourd := { d.gourd with sealed := d.gourd.sealed ++ [⟨x.window, x.thread, x.writes, x.slots, x.adds⟩] } }
  let d := x.cadds.foldl (fun d a => landAdd d x.window false x.thread a.1 a.2) d
  let d := signalDone (undeclare x.window false x.thread d) (versionAt d x.window) x.thread
  match x.ended with
  | some r => noteRecord (modThr d x.thread (fun t => { t with due := some (r, x.bank) })) (64 + x.thread) x.window
  | none => d

/-- SEAL of a core: its oldest ended transaction lands; it waits for queue room, and a late one is discarded. -/
def sealCore (d : Dev) (n : Nat) (ticks : Int) : Dev :=
  match (coreOf d n).ended with
  | [] => d
  | x :: r =>
    let pop (d : Dev) : Dev := modCore d n (fun c => { c with ended := r })
    if x.window + 2 ≤ d.media.block ∨ mediaRuns d = false then
      schedule (releaseFlow (takeoverSealed (pop d) (0x40 + n)) x.thread)
    else match fullFor d x with
      | [] =>
        let d := pop d
        let d := if d.media.block = x.window + 1 then bump d 0x2040 0x04 else d
        let d := takeoverSealed (putSlack (landTxn d x) x.window (0x40 + n) (slackOf d ticks)) (0x40 + n)
        schedule (releaseFlow d x.thread)
      | qs => qs.foldl fullWait d

/-- SEAL of a unit, `ticks` fine-clock ticks before the commit deadline of its window. -/
def sealUnit (d : Dev) (u : Nat) (ticks : Int) : Dev :=
  if isPod u then sealPod d u ticks
  else if isCore u then sealCore d (u - 0x40) ticks
  else d

/-! ### Records land at a boundary (R75, R83, R84, 07 R214) -/

/-- The latest block whose voices have been computed, before the window of the boundary at hand opens. -/
def lastRendered (d : Dev) : Nat := match d.media.stopM with
  | some m => m + 1
  | none => d.media.block + 1

/-- The spot of a voice at the start of block w + 2. -/
def spotAt (d : Dev) (w spot : Nat) (v : Voice) : Nat := match v.lane with
  | some (s, _) => if (w + 2) * blockLen d ≤ s then v.slot else spot
  | none => spot

/-- Words of the line of filter i that window w seals: its store holds the line as at the start of block w + 2, so those that block
w + 1 wrote (07 R214), or the whole line where the voice entered its lane in that block. -/
def combWritten (d : Dev) (v : Voice) (w i : Nat) : List Nat :=
  let t := (if i = 0 then v.f1 else v.f2).t - 2 * blockLen d * (lastRendered d - (w + 1))
  let whole := v.lane.any (fun x => (w + 1) * blockLen d ≤ x.1 && x.1 < (w + 2) * blockLen d)
  let n := if whole then combLen v.lat else 2 * blockLen d
  if fltType v.lat i = 3 then (rangeFrom (t - n) (min t n)).map (· % combLen v.lat) else []

/-- A voice's records of window w at a spot land: its checkpoint record is written whole; whether a word of the comb store that takes
a sub-sample is written whole is a free bit. DEDUCED: log entry 57. -/
def landSpot (d : Dev) (w at' : Nat) (v : Voice) : Dev :=
  let spot := spotAt d w at' v
  let written := (rangeFrom 0 2).flatMap (fun i => (combWritten d v w i).map (combWordAt spot i))
  let d := clearPoison d (fun w => decide (checkpointAt spot ≤ 8 * w ∧ 8 * w < checkpointAt spot + 1024))
  let x := takeFree d
  if Config.freeBit x.1 then
    clearPoison x.2 (fun a => written.any (fun b => b = 8 * a))
  else x.2

/-- A sealed record lands: those of a position's voices, or a thread's save record. DEDUCED: log entry 57. -/
def landRecord (d : Dev) (x : Nat × Nat) : Dev :=
  let r := x.1
  if r < 64 then
    let d := (d.alloc.slots.filter (fun y => y.1 / 32 = r)).foldl (fun d y => landSpot d x.2 y.1 y.2) d
    (d.alloc.lanes.filter (fun y => y.1 / 8 = r)).foldl (fun d y => landSpot d x.2 (1152 + y.1) y.2) d
  else
    let d := modThr d (r - 64) (fun t => match t.due with
      | some (g, b) => { t with save := g, saveBank := some b, due := none }
      | none => t)
    match mfind d.ver.active.heap (heapKey true (r - 64)) with
    | some b => clearPoison d (fun w => decide (b ≤ 8 * w ∧ 8 * w < b + 1024))
    | none => d

/-- At a boundary: what was sealed lands. -/
def applySealed (d : Dev) : Dev :=
  let d := d.gourd.records.foldl landRecord (landSealed d)
  { d with gourd := { d.gourd with records := [] } }

/-! ### The cross-check (22 R650, R651) -/

/-- The slot of position o that window k checks. -/
def checkedSlot (d : Dev) (o k : Nat) : Option Nat :=
  let s := slotCount d
  ((rangeFrom 0 s).map (fun i => 32 * o + (k + i) % s)).find? (fun n => (mfind d.alloc.slots n).isSome)

/-- The Pod that checks position o: the one serving the next position in service, cyclically. -/
def checkerOf (d : Dev) (o : Nat) : Nat :=
  let os := positionsIn d
  let next := ((os.filter (fun x => o < x)) ++ os).head?.getD o
  (podOf d next).getD 0xFF

/-- The checker's result for a Pod whose seal is held. -/
def crossCheck (d : Dev) (u : Nat) (equal : Bool) : Dev :=
  match positionOf d u with
  | none => d
  | some o => match (podWork d o).find? (fun x => x.check && x.held.isSome) with
    | none => d
    | some x =>
      if x.window ≠ d.media.block then d
      else
        let d := bump d 0x8000 0x06
        if equal then landPod d x u (x.held.getD 0)
        else
          let d := voidAt (bump d 0x8000 0x07) 0 (x.window + 1)
          podFail d u 0x02 ((checkedSlot d o x.window).getD 0) (checkerOf d o)

/-- Boundary k: a check that no result reached is abandoned and its seal is released (R651). -/
def abandonChecks (d : Dev) : Dev :=
  let pend := d.alloc.podTxns.filter (·.check)
  let d := { d with alloc := { d.alloc with podTxns := d.alloc.podTxns.map (fun x => { x with check := false }) } }
  pend.foldl (fun d x =>
    let d := bump d 0x8000 0x08
    match x.held, podOf d x.position with
    | some s, some u => landPod d x u s
    | _, _ => d) d

end Sys2Proof.Machine
end

