-- ==== Sys2Proof/Machine/Session.lean ====
section
/-!
DEFINITION. Sys2Proof/Machine/Session.lean: frames that leave the device, responses and their store (04 R109-R113),
sessions (R114, R137), protocol errors, violations and the freeze of a port (R138-R145).
-/
namespace Sys2Proof.Machine

/-! ### Rights -/

/-- Port p is frozen. -/
def frozen (d : Dev) (p : Nat) : Bool := oGet d (0x1000 + p) 0x06 = 1

/-- Port p holds right i (R107). -/
def hasRight (d : Dev) (p i : Nat) : Bool := bitOf (rs d (0x1000 + p) 0x01) i

/-! ### Frames that leave -/

/-- Bytes of a service frame (R109). -/
def svcFrame (seq svc code idx sub : Nat) (pl : List Byte) : List Byte :=
  let b := toLE 2 seq ++ toLE 1 svc ++ toLE 1 code ++ toLE 2 idx ++ toLE 1 sub ++ toLE 1 pl.length ++ pl
  b ++ toLE 4 (crc32 b)

/-- UART n's record and its change. -/
def uartOf (d : Dev) (n : Nat) : Uart := mget Uart.zero d.uarts n
def modUart (d : Dev) (n : Nat) (f : Uart → Uart) : Dev := { d with uarts := mmod Uart.zero d.uarts n f }

/-- Link port l's record and its change. -/
def linkOf (d : Dev) (l : Nat) : Link := mget Link.zero d.links l
def modLink (d : Dev) (l : Nat) (f : Link → Link) : Dev := { d with links := mmod Link.zero d.links l f }

/-- Byte-stuffing of one byte on UART n (21 R640). -/
def stuffByte (d : Dev) (n : Nat) (b : Byte) : List Nat :=
  let x := b.toNat
  let flow := rs d (0x7E00 + n) 0x07 = 1 ∧ (x = rs d (0x7E00 + n) 0x08 ∨ x = rs d (0x7E00 + n) 0x09)
  if x = 0x7E ∨ x = 0x7D ∨ flow then [0x7D, x ^^^ 0x20] else [x]

/-- A frame as UART n sends it. -/
def stuff (d : Dev) (n : Nat) (l : List Byte) : List Nat := 0x7E :: l.flatMap (stuffByte d n) ++ [0x7E]

/-- A frame for a partner of port p: it waits on its Link for credit (17 R521), or on its UART for the FIFO. -/
def sendFrame (d : Dev) (p node : Nat) (b : List Byte) : Dev :=
  if p < 4 then modLink d p (fun x => { x with wait := x.wait ++ [⟨node, .service, b⟩] })
  else modUart d (p - 4) (fun x => { x with frames := x.frames ++ [stuff d (p - 4) b] })

/-- The last n elements of a list. -/
def lastN {α : Type} (n : Nat) (l : List α) : List α := l.drop (l.length - n)

/-- Send a kept response; an OK one is suppressed by NORESP (R111). -/
def sendResp (d : Dev) (p flags : Nat) (r : Resp) : Dev :=
  if r.code = 0 ∧ bitOf flags 1 then d
  else sendFrame d p r.node (svcFrame r.seq (128 + r.svc) r.code r.idx r.sub r.payload)

/-- Answer a request: a response that is sent is kept among the last 32 (R112); a code other than OK carries no payload
(R115). A port whose session its own COMMIT has ended was answered before the switch (17 R544). -/
def respond (d : Dev) (p : Nat) (f : Frame) (svc code : Nat) (pl : List Byte) : Dev :=
  if (port d p).session = false ∨ (code = 0 ∧ bitOf f.flags 1) then d
  else
    let r : Resp := ⟨f.node, f.seq, svc, code, f.idx, f.sub, if code = 0 then pl else []⟩
    sendResp (modPort d p (fun x => { x with store := lastN 32 (x.store ++ [r]) })) p f.flags r

/-- A NOTIFY as a frame (R123): its SEQ is the port's notification count. -/
def noteFrame (d : Dev) (p idx sub block : Nat) (v : List Byte) : Dev × List Byte :=
  let n := (port d p).noteSeq
  (modPort d p (fun x => { x with noteSeq := (n + 1) % 65536 }), svcFrame n 0x8D 0 idx sub (toLE 8 block ++ v))

/-- The kept response to a request with the same SEQ, on a chain from the same node (R112, 17 R531). -/
def keptResp (d : Dev) (p : Nat) (f : Frame) : Option Resp :=
  (port d p).store.find? (fun r => r.seq = f.seq && r.node = f.node)

/-- A repeated request is answered again with its kept response (R112). -/
def answerAgain (d : Dev) (p : Nat) (f : Frame) (r : Resp) : Dev := sendResp (bump d (0x1000 + p) 0x10) p f.flags r

/-! ### Staging and sessions -/

/-- The staging version of owner p in state OPEN is discarded (R114, R137, R141). -/
def dropStaging (d : Dev) (p : Nat) : Dev :=
  if d.ver.stage = .opened ∧ d.ver.owner = some p then
    { d with ver := { d.ver with staging := none, owner := none, stage := .idle } }
  else d

/-- A session of port p begins (R114): its selectors read 0 (05 R152). -/
def beginSession (d : Dev) (p : Nat) : Dev :=
  modPort d p (fun x => { x with
    session := true, store := [], outq := [], xfer := none, subs := [], notes := []
    selThread := 0, selQueue := 0, selRegion := 0, selCounter := 0, selProgram := 0, selVoice := 0 })

/-- A session of port p ends (R114). What it received and did not execute is discarded with it.
DEDUCED: log entry 20. -/
def endSession (d : Dev) (p : Nat) : Dev :=
  if (port d p).session then
    let d := modPort d p (fun x => { x with session := false, store := [], outq := [], xfer := none, subs := [], notes := [] })
    let d := if p < 4 then modLink d p (fun x => { x with wait := [], sent := [] })
             else modUart d (p - 4) (fun x => { x with frames := [] })
    dropStaging d p
  else d

/-! ### Freezing (R138-R142) -/

/-- UMP words of an EVENT payload. -/
def eventWords : List Byte → List Nat
  | a :: b :: c :: e :: r => fromLE [a, b, c, e] :: eventWords r
  | _ => []

/-- Packets that an EVENT frame carries; 0 where its words end inside a packet. -/
def eventPackets (f : Frame) : Nat :=
  match packetsOf 16 (eventWords (f.payload.drop 12)) with
  | some l => l.length
  | none => 0

/-- Packets of a waiting request that a freeze refuses. -/
def refusedPackets : Outq → Nat
  | .event w => w.packets
  | .req svc f _ => if svc = 0x0A then eventPackets f else 0
  | _ => 0

/-- Frame and service code of a request that waits. -/
def Outq.frame : Outq → Frame
  | .live f _ _ => f
  | .event w => w.frame
  | .item f _ _ => f
  | .req _ f _ => f
def Outq.svc : Outq → Nat
  | .live _ s _ => s
  | .event _ => 0x0A
  | .item _ _ _ => 0x04
  | .req s _ _ => s

/-- A request that waits for room in a queue (11 R318, 16 R493). -/
def Outq.waits : Outq → Bool
  | .event _ | .item _ _ _ => true
  | .live _ _ _ | .req _ _ _ => false

/-- Service frames of port p from a node that are not yet executed. -/
def waitingFrom (d : Dev) (p node : Nat) : Nat := ((port d p).outq.filter (fun x => x.frame.node = node)).length

/-- Frames waiting from the port's busiest sender. -/
def busiest (d : Dev) (p : Nat) : Nat := ((rangeFrom 0 8).map (waitingFrom d p)).foldl max 0

/-- Root's service queues for port p are full (R113): 64 requests of one sender wait, or one waits for room in a queue.
DESIGN CHOICE: log entry 60. -/
def serviceFull (d : Dev) (p : Nat) : Bool := (port d p).outq.any Outq.waits || decide (64 ≤ busiest d p)

/-- Answer FROZEN to a request not executed (R141); one that is executed keeps its answer, and a repeat its original's (R112). -/
def refuseFrozen (p : Nat) (d : Dev) (x : Outq) : Dev :=
  let refuse : Dev := respond (bump d (0x1000 + p) 0x0D (refusedPackets x)) p x.frame x.svc 8 []
  match x with
  | .live f svc (some c) => respond d p f svc c []
  | .req _ f _ => match keptResp d p f with
    | some r => answerAgain d p f r
    | none => refuse
  | .live _ _ none | .event _ | .item _ _ _ => refuse

/-- Every request that waits on port p is answered FROZEN. -/
def flushFrozen (d : Dev) (p : Nat) : Dev :=
  let l := (port d p).outq
  l.foldl (refuseFrozen p) (modPort d p (fun x => { x with outq := [] }))

/-- The note-off that Root generates for a held note of the frozen port (R142). -/
def rootOff (d : Dev) (part : Nat) (n : NoteRec) : EvItem :=
  ⟨part, 0, earliest d, 1, 0x0F00, 0x40800000 + n.chan * 65536 + n.note * 256, 32768 * 65536⟩

/-- Note-offs for the notes of port p, when FREEZE_NOTES is 0, in the order in which their note-ons were applied. -/
def freezeNotes (d : Dev) (p : Nat) : Dev :=
  if rs d (0x1000 + p) 0x05 = 0 then
    let l := d.alloc.parts.flatMap (fun c => (c.2.unended.filter (fun n => n.src = p)).map (fun n => (c.1, n)))
    let l := sortBy (fun a b => decide (a.2.order < b.2.order)) l
    { d with alloc := { d.alloc with rootEvents := d.alloc.rootEvents ++ l.map (fun x => rootOff d x.1 x.2) } }
  else d

/-- Port p is frozen under a cause, for the request with the given SEQ (R141); a frozen port keeps its first cause.
DEDUCED: log entries 20, 29. -/
def freezePort (d : Dev) (p cause seq : Nat) : Dev :=
  if frozen d p then d
  else
    let d := oSet (oSet d (0x1000 + p) 0x06 1) (0x1000 + p) 0x07 cause
    let d := bump d (0x1000 + p) 0x09
    let d := addFault d 0x07 (0xC0 + p) 5 0xFF 0 cause (if cause = 6 then 0 else seq)
    let d := { d with live := d.live.filter (fun w => w.port ≠ p) }
    let d := flushFrozen d p
    let run := mediaRuns d
    let d := modPort d p (fun x => { x with xfer := none, removeEvents := x.removeEvents || run })
    freezeNotes (dropStaging d p) p

/-- One protocol error of port p (R140). -/
def protoError (d : Dev) (p seq : Nat) : Dev :=
  let d := bump d (0x1000 + p) 0x0A
  let n := (port d p).protoCount + 1
  let d := modPort d p (fun x => { x with protoCount := n })
  let lim := rs d (0x1000 + p) 0x04
  if lim ≠ 0 ∧ lim ≤ n then freezePort d p 3 seq else d

/-- Port p resumes (R144); the record names the supervisor, 0xFF for the port itself. DEDUCED: log entry 29. -/
def thawPort (d : Dev) (p sup : Nat) : Dev :=
  if frozen d p then
    let d := oSet (oSet (oSet d (0x1000 + p) 0x06 0) (0x1000 + p) 0x07 0) (0x1000 + p) 0x08 0
    let q := 8 * rs d (0x1000 + p) 0x03
    let d := modPort d p (fun x => { x with bucket := q, protoCount := 0, selfTimer := false })
    addFault d 0x09 (0xC0 + p) 6 0xFF 0 sup 0
  else d

/-- Core n resumes (R144): its threads at the next boundary. -/
def thawCore (d : Dev) (n sup : Nat) : Dev :=
  if coreFrozen d n then addFault (oSet d 0x1020 (n + 1) 0) 0x09 (0x40 + n) 6 0xFF 0 sup 0 else d

/-- At a boundary: the events of a frozen port still in part event queues are removed (R141), those that it has entered since an
UNFREEZE among them. DESIGN CHOICE: log entry 71. -/
def removeEvents (d : Dev) (p : Nat) : Dev :=
  if (port d p).removeEvents then
    let hit (v : BitVec 128) : Bool := evSrc v = p
    let n := ((rangeFrom 0 256).map (fun q => ((queueOf d q).items.filter hit).length)).sum
    let d := (rangeFrom 0 256).foldl (fun d q => modQueue d q (keepItems (fun v => !hit v))) d
    modPort (bump d (0x1000 + p) 0x0D n) p (fun x => { x with removeEvents := false })
  else d

end Sys2Proof.Machine
end

