-- ==== Sys2Proof/Machine/Link.lean ====
section
/-!
DEFINITION. Sys2Proof/Machine/Link.lean: the Link ports (17): training, cycle headers, credits, slots, frames in both
directions, chain mode, lane failure, and the anchors of Link time (02 R53-R62).
-/
namespace Sys2Proof.Machine

/-! ### Objects of a port -/

/-- Index of port l's objects (R546), and of its chain node n (R549). -/
def linkIdx (l : Nat) : Nat := 0x1100 + 0x10 * l
def nodeIdx (l n : Nat) : Nat := 0x1140 + 8 * l + n

/-- LINK_STATE. -/
def linkState (d : Dev) (l : Nat) : Nat := oGet d (linkIdx l) 0x09
def setLinkState (d : Dev) (l st : Nat) : Dev := oSet d (linkIdx l) 0x09 st

/-- The port is up, on two lanes, on one, or realigning. -/
def linkUp (d : Dev) (l : Nat) : Bool := 2 ≤ linkState d l && linkState d l ≤ 4

/-- The port runs on two lanes, or on one while its frames can go out (R509, R512); a dropped port forwards on its lanes (R536). -/
def twoLanes (d : Dev) (l : Nat) : Bool := linkState d l = 2 || (linkState d l == 6 && (linkOf d l).two)
def oneLane (d : Dev) (l : Nat) : Bool := linkState d l = 3 || (linkState d l == 6 && !(linkOf d l).two)

/-- The version whose maps, streams and data rings port l uses in its cycles: those of a switch from the next cycle on (R545). The
codes of a block and the channels that are folded are those of the active version (03 R91, R523). DESIGN CHOICE: log entry 69. -/
def linkCfg (d : Dev) (l : Nat) : Version := ((linkOf d l).old).getD d.ver.active

/-- An RS field of port l. -/
def lf (d : Dev) (l sub : Nat) : Nat :=
  if (0x18 ≤ sub ∧ sub ≤ 0x1A) ∨ 0x20 ≤ sub then vGet (linkCfg d l) (linkIdx l) sub else rs d (linkIdx l) sub

/-- Chain mode, NODE, and whether the device is the head. -/
def chainMode (d : Dev) (l : Nat) : Bool := lf d l 0x02 = 1
def ownNode (d : Dev) (l : Nat) : Nat := if chainMode d l then lf d l 0x03 else 0
def isHead (d : Dev) (l : Nat) : Bool := ownNode d l = 0

/-- A byte of SLOT_MAP in a version (R546), and entry s (R548). -/
def slotByte (v : Version) (l o : Nat) : Byte := (mfind v.slots (1920 * l + o)).getD (if o % 2 = 0 then 1 else 0)
def slotEntry (v : Version) (l s : Nat) : Nat := (slotByte v l (2 * s)).toNat + 256 * (slotByte v l (2 * s + 1)).toNat

/-- Fields of a SLOT_MAP entry. -/
def slKind (e : Nat) : Nat := bitsOf e 1 0
def slStream (e : Nat) : Nat := bitsOf e 7 4
def slOwner (e : Nat) : Nat := bitsOf e 10 8
def slDest (e : Nat) : Nat := bitsOf e 14 12

/-- Fields of OSTREAM and ISTREAM (R547). -/
def stFirst (x : Nat) : Nat := bitsOf x 5 0
def stCount (x : Nat) : Nat := bitsOf x 12 8
def stOn (x : Nat) : Bool := bitOf x 15
def stRing (x : Nat) : Nat := bitsOf x 27 16
def stSrc (x : Nat) : Nat := bitsOf x 30 28

/-- DATA_RING d of port l. -/
def dataRing (d : Dev) (l k : Nat) : Nat := lf d l (0x18 + k)

/-! ### Link time (02 R53-R62) -/

/-- Link time at the latest cycle boundary or marker. DESIGN CHOICE: log entry 13. -/
def linkTime (d : Dev) : Nat := oGet d 0x2020 0x01
def setLinkTime (d : Dev) (t : Nat) : Dev := oSet d 0x2020 0x01 (t % 2 ^ 64)

/-- An anchor enters an empty history. -/
def firstAnchor (d : Dev) (a : Nat × Nat) : Dev := { d with time := { d.time with anchor := some a, hist := [a] } }

/-- RATE measured against the anchor 64 anchors earlier (R56). -/
def measuredRate (d : Dev) : Nat :=
  match d.time.hist, d.time.hist[64]? with
  | a :: _, some b => (a.2 - b.2) * 2 ^ 48 / (a.1 - b.1) % 2 ^ 64
  | _, _ => oGet d 0x2020 0x05

/-- RATE after an anchor. -/
def putRate (d : Dev) : Dev :=
  oSet d 0x2020 0x05 (if oGet d 0x2020 0x0B = 6 then nominalRate (rs d 0x2010 0x01) else measuredRate d)

/-- A step is recorded (R59) and the history restarts. A step beyond 64 bits is taken as an integer, and LAST_STEP holds
it modulo 2^64. DESIGN CHOICE: log entry 58. -/
def stepAnchor (d : Dev) (a : Nat × Nat) (st : Int) : Dev :=
  let d := if st.natAbs ≤ 1000000000 then bump d 0x2020 0x06 else remind (bump d 0x2020 0x07) 0x2020 0x07
  firstAnchor (oSetI d 0x2020 0x08 64 st) a

/-- The Link time that the holdover predicts for media position p (R62): the last anchor and RATE read backwards.
DEDUCED: log entry 58. -/
def predicted (d : Dev) (b : Nat × Nat) (p : Nat) : Int :=
  (b.1 : Int) + (((p : Int) - b.2) * 2 ^ 48 + (oGet d 0x2020 0x05 / 2 : Nat)) / (oGet d 0x2020 0x05 : Nat)

/-- Latch an anchor at a marker of the time master (R55, R59), the first one after a holdover or not (R62); `frac` is the
media position's fraction. -/
def latchAnchor (d : Dev) (t frac : Nat) (held : Bool) : Dev :=
  if mediaRuns d then
    let a : Nat × Nat := (t, sixNow d * 65536 + frac % 65536)
    match d.time.anchor with
    | none => firstAnchor d a
    | some b =>
      let st : Int := (t : Int) - (if held then predicted d b a.2 else (b.1 : Int) + 125000)
      if st.natAbs ≤ 1000 then
        putRate { d with time := { d.time with anchor := some a, hist := (a :: d.time.hist).take 65 } }
      else stepAnchor d a st
  else d

/-- SIX of a Link time under the anchor in force (R57); a result below 0 is 0, as late as any.
DEDUCED: log entry 23. -/
def toSix (d : Dev) (a : Nat × Nat) (t : Nat) : Nat :=
  let x := wrapS 64 ((t : Int) - (a.1 : Int))
  let rate : Nat := oGet d 0x2020 0x05
  let inc := rndConv (x * rate) 48
  let p : Int := wrapS 80 (a.2 : Nat) + inc + sgn 32 (rs d 0x2010 0x09) * 65536
  (p / 65536).toNat

/-! ### Credits (R520-R522) -/

/-- Nodes of the port's link. -/
def nodeCount (d : Dev) (l : Nat) : Nat := if chainMode d l then lf d l 0x04 else 2

/-- The device's node word (R520): MSG_CREDIT for its busiest sender, none while Root's queues are full, and the credit
of each data ring. DEDUCED: log entry 45. -/
def creditsOf (d : Dev) (l : Nat) : List Nat :=
  let dcr (k : Nat) : Nat :=
    let q := dataRing d l k
    if q = 0xFFFF then 0 else min 255 (qRoom d q / (4 * (nodeCount d l - 1)))
  [if serviceFull d l then 0 else min 255 (64 - busiest d l), dcr 0, dcr 1, dcr 2]

/-- Advertise: frames received count from here. -/
def advertise (d : Dev) (l : Nat) : Dev :=
  let c := creditsOf d l
  oSet (modLink d l (fun x => { x with adv := c, got := [] })) (linkIdx l) 0x1C (nth 0 c 0)

/-- Count a received frame of kind k from a node against the advertised credit; false when it is beyond it. -/
def takeCredit (d : Dev) (l node k : Nat) : Bool × Dev :=
  let x := linkOf d l
  let n := mget 0 x.got (4 * node + k)
  if n < nth 0 x.adv k then (true, modLink d l (fun x => { x with got := mput 0 x.got (4 * node + k) (n + 1) }))
  else (false, d)

/-- A frame beyond its credit is discarded and is a protocol error (R522). DEDUCED: log entry 45. -/
def creditOverrun (d : Dev) (l seq : Nat) : Dev := protoError (bump d (linkIdx l) 0x13) l seq

/-! ### The guard test of a chain (R534, R535) -/

/-- Guard test of a frame of a node whose marker is `off` ps from its slot: false when it is discarded. -/
def guardTest (d : Dev) (l node : Nat) (off : Int) : Bool × Dev :=
  if chainMode d l then
    let e := off.natAbs
    let n := node % 8
    let land (d : Dev) : Dev := modLink d l (fun x => { x with landed := x.landed ++ [(n, decide (12000 < e))] })
    let d := if oGet d (nodeIdx l n) 0x01 = 3 ∧ n ≠ ownNode d l then oSet d (nodeIdx l n) 0x01 2 else d
    if e ≤ 12000 then (true, land d)
    else if e ≤ 18400 then (true, land (bump (bump d (linkIdx l) 0x11) (nodeIdx l n) 0x03))
    else (false, land (bump (bump d (linkIdx l) 0x10) (nodeIdx l n) 0x04))
  else (true, d)

/-- A node forwards every frame of another owner unchanged, its own copy aside (R529). -/
def forwardFrame (d : Dev) (l owner : Nat) (b : List Byte) : Dev :=
  if chainMode d l ∧ owner ≠ ownNode d l then modLink d l (fun x => { x with forwarded := x.forwarded ++ [b] }) else d

/-- EDGE_CYCLES of node n at the end of a cycle of the head (R535), and the command it calls for. -/
def edgeCycle (l : Nat) (d : Dev) (n : Nat) : Dev :=
  let mine := (linkOf d l).landed.filter (fun x => x.1 = n)
  if mine = [] then d
  else if mine.any (·.2) then
    let c := min 8 (oGet d (nodeIdx l n) 0x02 + 1)
    let d := oSet d (nodeIdx l n) 0x02 c
    modLink d l (fun x => { x with cmds := x.cmds ++ [(n, if c = 8 then 2 else 1)] })
  else oSet d (nodeIdx l n) 0x02 0

/-- The head's cycle ends. -/
def edgeCycles (d : Dev) (l : Nat) : Dev :=
  let d := if chainMode d l && isHead d l then (rangeFrom 0 8).foldl (edgeCycle l) d else d
  modLink d l (fun x => { x with landed := [], forwarded := [] })

/-! ### Chain commands (R536, R537) -/

/-- A session of port l, on the device's side: nothing of an earlier one waits, and the credits of the latest header hold on
(R521). -/
def startLinkSession (d : Dev) (l : Nat) : Dev :=
  let d := modLink d l (fun x => { x with
    wait := [], sent := [], again := [], part := [], isoSeen := [], dseqIn := [], dseqOut := [] })
  advertise (beginSession d l) l

/-- Node n is in the chain of port l: a command to another one has no effect (R549). -/
def inChain (d : Dev) (l n : Nat) : Bool := n < nodeCount d l

/-- RESYNC to node n: the device discards its ratio estimate and is silent for two cycles. -/
def resyncNode (d : Dev) (l n : Nat) : Dev :=
  if inChain d l n = false then d else
  let d := oSet d (nodeIdx l n) 0x01 3
  if n = ownNode d l then modLink d l (fun x => { x with mute := 2, ratios := [] }) else d

/-- Whether the cycle that begins is one of the device's silent ones; after the last the node is active again. -/
def muteStep (d : Dev) (l : Nat) : Bool × Dev :=
  let m := (linkOf d l).mute
  let own := nodeIdx l (ownNode d l)
  if m ≠ 0 then (true, modLink d l (fun x => { x with mute := m - 1 }))
  else (false, if chainMode d l ∧ oGet d own 0x01 = 3 then oSet d own 0x01 2 else d)

/-- DROP of node n. -/
def dropNode (d : Dev) (l n : Nat) : Dev :=
  if inChain d l n = false then d else
  let d := bump (oSet d (nodeIdx l n) 0x01 4) (nodeIdx l n) 0x06
  if n = ownNode d l ∧ linkUp d l then
    endSession (setLinkState (modLink d l (fun x => { x with two := decide (linkState d l = 2) })) l 6) l
  else d

/-- REJOIN to node n. -/
def rejoinNode (d : Dev) (l n : Nat) : Dev :=
  if inChain d l n = false then d else
  let was := linkState d l
  let d := oSet (resyncNode d l n) (nodeIdx l n) 0x02 0
  if n = ownNode d l ∧ was = 6 then
    startLinkSession (setLinkState d l (if (linkOf d l).two then 2 else 3)) l
  else d

/-- The command of a received header's CTRL byte, which the head's own header does not give to the head (R519). The rows
CHAIN_RESYNC, CHAIN_DROP and CHAIN_REJOIN_CMD give it without a header. DEDUCED: log entry 61. -/
def headerCmd (d : Dev) (l ctrl : Nat) : Dev :=
  if chainMode d l ∧ isHead d l = false then match ctrl / 16 with
    | 1 => resyncNode d l (ctrl % 8)
    | 2 => dropNode d l (ctrl % 8)
    | 3 => rejoinNode d l (ctrl % 8)
    | _ => d
  else d

/-! ### Sending (R511, R512, R519-R525) -/

/-- A frame of 76 bytes with its CRC (R516, R517): 72 bytes and `crc32` of them. -/
def frame76 (b : List Byte) : List Byte :=
  let x := b ++ List.replicate (72 - b.length) 0#8
  x ++ toLE 4 (crc32 x)

/-- Lane that carries slot s now. -/
def laneOf (d : Dev) (l s : Nat) : Nat :=
  if twoLanes d l then s % 2
  else match (linkOf d l).failed with
    | some f => 1 - f
    | none => if oGet d (linkIdx l) 0x0A = 2 then 1 else 0

/-- Slot s is carried (R512). -/
def carried (d : Dev) (l s : Nat) : Bool :=
  if twoLanes d l then true
  else
    let e := slotEntry (linkCfg d l) l
    let j := s / 2
    if s % 2 = 0 then slKind (e s) = 2 || slKind (e (2 * j + 1)) ≠ 2
    else slKind (e (2 * j)) ≠ 2 && slKind (e s) = 2

/-- A frame goes out: it is kept until its release (R540). -/
def putOut (d : Dev) (l s : Nat) (f : TxFrame) : Dev :=
  let lane := laneOf d l s
  modLink d l (fun x => { x with sent := x.sent ++ [⟨oGet d (linkIdx l) 0x0C, lane, f⟩] })

/-- Words of sample frames, as bytes. -/
def wordBytes (l : List Int) : List Byte := l.flatMap (fun w => toLE 4 (wrapU 32 w))

/-- A frame of the failed lane goes out again and counts in RESENT (R540). -/
def resend (d : Dev) (l slot : Nat) (f : TxFrame) : Dev :=
  bump (putOut (modLink d l (fun x => { x with again := x.again.erase f })) l slot f) (linkIdx l) 0x15

/-- A frame of an output stream. -/
def isIso (f : TxFrame) : Bool := match f.kind with
  | .iso _ => true
  | _ => false

/-- The iso slot of stream s: the oldest unsent sample frames (R524), with the channels that the stream has in this cycle (R517,
R545). DESIGN CHOICE: log entry 69. -/
def sendStream (d : Dev) (l slot s : Nat) : Dev :=
  let st := lf d l (0x20 + s)
  let cc := stCount st
  let buf := mget [] (linkOf d l).unsent s
  if stOn st = false ∨ cc = 0 then d
  else match buf.take (16 / cc) with
    | [] => d
    | x :: r =>
      let fs := x :: r
      let b := toLE 5 x.1 ++ toLE 1 (s + 16 * (oGet d 0x2000 0x03 % 16)) ++ toLE 1 cc ++ toLE 1 fs.length ++
        wordBytes (fs.flatMap (fun y => (y.2.drop (stFirst st)).take cc))
      let d := modLink d l (fun y => { y with unsent := mput [] y.unsent s (buf.drop fs.length) })
      putOut d l slot ⟨slDest (slotEntry (linkCfg d l) l slot), .iso s, frame76 b⟩

/-- The iso slot of stream s: a frame of it to be sent again (R540), else new ones. -/
def sendIso (d : Dev) (l slot s : Nat) : Dev :=
  match (linkOf d l).again.find? (fun f => f.kind == .iso s) with
  | some f => resend d l slot f
  | none => sendStream d l slot s

/-- Credit of kind k that a node has left. -/
def creditLeft (d : Dev) (l node k : Nat) : Nat :=
  let x := linkOf d l
  let own := if chainMode d l then node else 0
  nth 0 (nth [] x.words own) k - mget 0 x.used (4 * node + k)

/-- Use one credit. -/
def useCredit (d : Dev) (l node k : Nat) : Dev :=
  modLink d l (fun x => { x with used := mput 0 x.used (4 * node + k) (mget 0 x.used (4 * node + k) + 1) })

/-- The data ring that the device fills and whose frame may go to a node now (R527). -/
def dataDue (d : Dev) (l node : Nat) : Option Nat :=
  (rangeFrom 0 3).find? (fun k =>
    let q := dataRing d l k
    q != 0xFFFF && d.stalk.filled.contains q && !(engineItems d q).isEmpty && 0 < creditLeft d l node (1 + k))

/-- A data frame of ring k (R516). -/
def sendData (d : Dev) (l slot node k : Nat) : Dev :=
  let q := dataRing d l k
  let items := (queueOf d q).items.take 4
  let n := mget 0 (linkOf d l).dseqOut q
  let b := toLE 2 q ++ toLE 2 n ++ toLE 1 items.length ++ toLE 3 0 ++ items.flatMap (fun v => toLE 16 v.toNat)
  let d := modLink (takeOut d q items.length) l (fun x => { x with dseqOut := mput 0 x.dseqOut q ((n + 1) % 65536) })
  resumeProducers (putOut (useCredit d l node (1 + k)) l slot ⟨node, .data k, frame76 b⟩) q

/-- A new frame in a message slot to a node: the first service frame for it, else the first notification (04 R123; its place
is DESIGN CHOICE: log entry 60), else a data frame. -/
def sendNew (d : Dev) (l slot node : Nat) : Dev :=
  let data : Dev := match dataDue d l node with
    | some k => sendData d l slot node k
    | none => d
  if creditLeft d l node 0 = 0 then data
  else match (linkOf d l).wait.find? (fun f => f.node = node) with
    | some f => putOut (useCredit (modLink d l (fun x => { x with wait := x.wait.erase f })) l node 0) l slot f
    | none => match (port d l).notes.find? (fun n => n.node = node) with
      | some n =>
        let r := noteFrame (modPort d l (fun x => { x with notes := x.notes.erase n })) l n.idx n.sub n.block n.value
        putOut (useCredit r.1 l node 0) l slot ⟨node, .service, r.2⟩
      | none => data

/-- The kind of credit that a frame uses. -/
def creditKind (f : TxFrame) : Nat := match f.kind with
  | .data k => 1 + k
  | _ => 0

/-- The device owns an iso slot of stream s on port l. -/
def ownsStream (d : Dev) (l s : Nat) : Bool :=
  (rangeFrom 0 960).any (fun j =>
    let e := slotEntry (linkCfg d l) l j
    slKind e == 2 && slStream e == s && (!chainMode d l || slOwner e == ownNode d l))

/-- An iso frame still goes out again, which other repeats wait for (R540). One whose stream has lost its slots holds nothing
back. DEDUCED: log entry 61. -/
def isoOwed (d : Dev) (l : Nat) : Bool := (linkOf d l).again.any (fun f => match f.kind with
  | .iso s => ownsStream d l s
  | _ => false)

/-- Service and data frames to a node that go out again. -/
def repeatsFor (d : Dev) (l node : Nat) : List TxFrame :=
  (linkOf d l).again.filter (fun f => f.node == node && !isIso f)

/-- A message slot to a node: the frames that go out again, once the iso frames have, as far as their credits go (R521, R540);
new frames follow them. -/
def sendMsg (d : Dev) (l slot node : Nat) : Dev :=
  match repeatsFor d l node with
  | [] => sendNew d l slot node
  | fs =>
    if isoOwed d l then d
    else match fs.find? (fun f => 0 < creditLeft d l node (creditKind f)) with
      | some f => resend (useCredit d l node (creditKind f)) l slot f
      | none => d

/-- E ≤ 12.0 ns at slot s (R533): its position begins 3.2·(152 + 81·j) ns after the marker (R511). -/
def boundOk (d : Dev) (l s : Nat) : Bool := match (linkOf d l).ratios with
  | a :: b :: _ => decide (((a : Int) - (b : Int)).natAbs * (152 + 81 * (s / 2)) * 16 ≤ 55 * 10 ^ 12)
  | _ => true

/-- The node may start its frame in slot s: E is small enough, and a forwarded frame lets it start within 12.0 ns of
its estimate (R533). -/
def mayStart (d : Dev) (l : Nat) (late : List (Nat × Nat)) (s : Nat) : Bool :=
  boundOk d l s && late.all (fun x => x.1 != s || decide (x.2 ≤ 12000))

/-- The device's use of slot s. -/
def useSlot (l : Nat) (d : Dev) (s : Nat) : Dev :=
  let e := slotEntry (linkCfg d l) l s
  if carried d l s ∧ (chainMode d l = false ∨ slOwner e = ownNode d l) then
    if slKind e = 2 then sendIso d l s (slStream e)
    else if slKind e = 1 then sendMsg d l s (slDest e)
    else d
  else d

/-- Slot s of the cycle: a chain node that may not start its frame skips the slot and counts it. -/
def sendSlot (late : List (Nat × Nat)) (l : Nat) (d : Dev) (s : Nat) : Dev :=
  let e := useSlot l d s
  if chainMode d l ∧ mayStart d l late s = false ∧ (linkOf e l).sent.length ≠ (linkOf d l).sent.length then
    bump d (linkIdx l) 0x12
  else e

/-- Nodes to which the device owns a message slot on port l. -/
def msgDests (d : Dev) (l : Nat) : List Nat :=
  if chainMode d l then
    ((((rangeFrom 0 960).map (slotEntry (linkCfg d l) l)).filter (fun e => slKind e = 1 && slOwner e == ownNode d l)).map
      slDest).eraseDups
  else [0]

/-- A frame waits for credit: a service frame that stays, or a filled ring without credit at any node (R521). -/
def creditWaits (d : Dev) (l : Nat) : Bool :=
  (linkOf d l).wait.any (fun f => creditLeft d l f.node 0 == 0) ||
  (linkOf d l).again.any (fun f => !isIso f && creditLeft d l f.node (creditKind f) == 0) ||
  (port d l).notes.any (fun n => creditLeft d l n.node 0 == 0) ||
  (rangeFrom 0 3).any (fun k =>
    let q := dataRing d l k
    let nodes := msgDests d l
    q != 0xFFFF && d.stalk.filled.contains q && !(engineItems d q).isEmpty && !nodes.isEmpty &&
      nodes.all (fun n => creditLeft d l n (1 + k) == 0))

/-- Whether the port has anything to send. -/
def hasTraffic (d : Dev) (l : Nat) : Bool :=
  !(linkOf d l).wait.isEmpty || !(linkOf d l).again.isEmpty || !(port d l).notes.isEmpty || !(linkOf d l).unsent.isEmpty ||
  (rangeFrom 0 3).any (fun k => dataRing d l k != 0xFFFF && d.stalk.filled.contains (dataRing d l k) &&
    !(engineItems d (dataRing d l k)).isEmpty)

/-- `crc32` of the device's SLOT_MAP. -/
def mapCrcOf (d : Dev) (l : Nat) : Nat := crc32 ((rangeFrom 0 1920).map (slotByte (linkCfg d l) l))

/-- The slots of one cycle: a chain node that holds another map counts the cycle (R530), and it sends nothing, like one
that is silent or dropped. -/
def sendSlots (d : Dev) (l : Nat) (muted : Bool) (late : List (Nat × Nat)) : Dev :=
  if linkUp d l = false ∧ linkState d l ≠ 6 then d
  else if chainMode d l ∧ isHead d l = false ∧ (linkOf d l).mapCrc ≠ some (mapCrcOf d l) then bump d (linkIdx l) 0x12
  else if linkState d l = 4 ∨ linkState d l = 6 ∨ muted then d
  else if chainMode d l ∧ oGet d (nodeIdx l (ownNode d l)) 0x01 = 4 then d
  else if hasTraffic d l then
    let d := (rangeFrom 0 960).foldl (sendSlot late l) d
    if creditWaits d l then bump d (linkIdx l) 0x14 else d
  else d

/-- Put node words into the header: the device's own at its place. -/
def nodeWords (d : Dev) (l : Nat) (old : List (List Nat)) : List (List Nat) :=
  setNth old (ownNode d l) (linkOf d l).adv

/-- A header's 60 bytes with its CRC. -/
def header64 (b : List Byte) : List Byte := b.take 60 ++ toLE 4 (crc32 (b.take 60))

/-- The device originates a cycle header on port l (R514, R519, R529). DEDUCED: log entry 45. -/
def sendHeader (d : Dev) (l : Nat) : Dev :=
  let chain := chainMode d l
  let d := oSet (advertise d l) (linkIdx l) 0x0C ((oGet d (linkIdx l) 0x0C + 1) % 2 ^ 32)
  let x := linkOf d l
  let cmd := if chain then x.cmds.head? else none
  let ctrl := match cmd with
    | some (n, c) => 16 * c + n
    | none => 0
  let flags := 1 + 2 * b2n (linkState d l = 2) + 4 * b2n chain
  let words := nodeWords d l (List.replicate 8 [0, 0, 0, 0])
  let b := toLE 8 (linkTime d) ++ toLE 4 (oGet d (linkIdx l) 0x0C) ++
    toLE 4 (if chain then 0 else (x.rxCycle + 2 ^ 32 - 1) % 2 ^ 32) ++ toLE 1 flags ++
    toLE 1 (oGet d (linkIdx l) 0x0A) ++ toLE 1 ctrl ++ toLE 1 (nodeCount d l) ++
    toLE 4 (if chain then mapCrcOf d l else 0) ++ words.flatMap (fun w => w.flatMap (toLE 1)) ++ toLE 4 0
  let d := modLink d l (fun x => { x with header := header64 b, cmds := if chain then x.cmds.drop 1 else [] })
  match cmd with
  | some (n, 2) => dropNode d l n
  | some (n, 1) => resyncNode d l n
  | some (n, _) => rejoinNode d l n
  | none => d

/-- What port l met in the cycle; a port that is not named met nothing. -/
def cycleOf (ports : List PortCycle) (l : Nat) : PortCycle := (ports.find? (fun x => x.port = l)).getD ⟨l, none, false, []⟩

/-- TS2 lock of the failed lane over a cycle: after 64 in a row both RX_LANES bits are set (R542), and a lane that loses lock is good
no longer. An end whose partner was ready first holds no lock yet when both turn to two lanes. DEDUCED: log entry 61. -/
def lockStep (d : Dev) (l : Nat) (locked : Bool) : Dev :=
  let rx := oGet d (linkIdx l) 0x0A
  if lf d l 0x05 = 2 ∧ ((oneLane d l ∧ (linkOf d l).failed.isSome) ∨ (twoLanes d l ∧ rx ≠ 3)) then
    let n := if locked then (linkOf d l).lock + 1 else 0
    let d := modLink d l (fun x => { x with lock := n })
    if 64 ≤ n then oSet d (linkIdx l) 0x0A 3
    else if locked then d
    else oSet d (linkIdx l) 0x0A (match (linkOf d l).failed with
      | some f => 2 - f
      | none => rx)
  else d

/-- Own cycles since a header first showed both of the partner's RX_LANES bits (R542). -/
def countBoth (d : Dev) (l : Nat) : Dev := modLink d l (fun x => { x with both := x.both.map (· + 1) })

/-- The receive lanes of a port on which `lanes` completed step 4: both only where both ends have LANES_CFG 2, else the lower
one (R509). -/
def lanesUp (d : Dev) (l lanes : Nat) (partner2 : Bool) : Nat :=
  if lanes % 4 = 3 && lf d l 0x05 == 2 && partner2 then 3 else if lanes % 2 = 1 then 1 else 2

/-- PATH_DELAY in ps from the measured round trip in UI and the partner's TURN in symbol times of 10 UI: whole UI of
320 ps (R510). DEDUCED: log entry 61. -/
def pathDelay (t : Trip) : Nat := min (2 ^ 32 - 1) (320 * ((t.trip - 10 * t.turn) / 2))

/-- Step 4 of training on port l: its lanes and PATH_DELAY are known (R508). -/
def stepFour (d : Dev) (l : Nat) (t : Option Trained) : Dev :=
  match t with
  | none => d
  | some t =>
    if linkState d l = 1 then
      modLink (oSet (oSet d (linkIdx l) 0x0A (lanesUp d l t.lanes t.partner2)) (linkIdx l) 0x0B (pathDelay t.trip)) l
        (fun x => { x with trained := true })
    else d

/-- At the device's cycle boundary, port l originates its cycle, from step 4 of training on (R508): a chain node other
than the head does not. -/
def linkCycle (ports : List PortCycle) (d : Dev) (l : Nat) : Dev :=
  let c := cycleOf ports l
  let d := lockStep (modLink (edgeCycles d l) l (fun x => { x with old := none })) l c.locked
  let d := stepFour d l c.trained
  if (linkUp d l ∨ (linkState d l = 1 ∧ (linkOf d l).trained)) ∧ (chainMode d l = false ∨ isHead d l) then
    let m := muteStep (sendHeader (countBoth d l) l) l
    sendSlots m.2 l m.1 c.late
  else d

/-! ### Receiving headers (R519, R529, R538) -/

/-- ps to ns, to the nearest, ties to even. -/
def psToNs (x : Nat) : Nat :=
  let q := x / 1000
  let r := x % 1000
  if 500 < r ∨ (r = 500 ∧ q % 2 = 1) then q + 1 else q

/-- Node words of a header. -/
def wordsIn (h : List Byte) : List (List Nat) :=
  (rangeFrom 0 8).map (fun i => ((h.drop (24 + 4 * i)).take 4).map (·.toNat))

/-- Bytes [o, o + n) of a frame as a number. -/
def fieldAt (b : List Byte) (o n : Nat) : Nat := fromLE ((b.drop o).take n)

/-- The time master's marker (R55, R62, R538): Link time follows it, an anchor is latched. -/
def timeMarker (d : Dev) (l : Nat) (h : List Byte) (frac : Nat) : Dev :=
  if rs d 0x2010 0x07 = l + 1 ∧ bitOf (fieldAt h 16 1) 0 then
    let t := (fieldAt h 0 8 + psToNs (oGet d (linkIdx l) 0x0B)) % 2 ^ 64
    let d := latchAnchor (setLinkTime d t) t frac (oGet d 0x2020 0x0D == 1)
    oSet { d with time := { d.time with sinceMark := 0 } } 0x2020 0x0D 0
  else d

/-- A chain node forwards the head's header (R529) and uses its own slots; its latency is a free value.
DESIGN CHOICE: log entry 14. -/
def forwardHeader (d : Dev) (l : Nat) (h : List Byte) (muted : Bool) (late : List (Nat × Nat)) : Dev :=
  let d := modLink d l (fun x => { x with old := none })
  let d := oSet (advertise (countBoth d l) l) (linkIdx l) 0x0C (fieldAt h 8 4)
  let (k, d) := takeFree d
  let w := (nodeWords d l (wordsIn h)).flatMap (fun w => w.flatMap (toLE 1))
  let b := toLE 8 (fieldAt h 0 8 + Config.freeNat k) ++ (h.drop 8).take 9 ++ toLE 1 (oGet d (linkIdx l) 0x0A) ++
    (h.drop 18).take 6 ++ w ++ toLE 4 0
  sendSlots (modLink d l (fun x => { x with header := header64 b })) l muted late

/-- What every valid header gives (R519, R521, R538): credits, the partner's cycle, the head's map, an anchor. -/
def headerIn (d : Dev) (l : Nat) (h : List Byte) (frac : Nat) : Dev :=
  timeMarker (modLink d l (fun x => { x with
    words := wordsIn h, used := [], rxCycle := fieldAt h 8 4
    mapCrc := if chainMode d l then some (fieldAt h 20 4) else none })) l h frac

/-- On one lane of two, a header first shows both RX_LANES bits of the partner (R542). -/
def partnerLanes (d : Dev) (l : Nat) (h : List Byte) : Dev :=
  if oneLane d l ∧ lf d l 0x05 = 2 ∧ (linkOf d l).failed.isSome ∧ fieldAt h 17 1 % 4 = 3 ∧ (linkOf d l).both = none then
    modLink d l (fun x => { x with both := some 0 })
  else d

/-- A valid header arrives on a port that is up or dropped. -/
def takeHeader (d : Dev) (l : Nat) (h : List Byte) (frac : Nat) (late : List (Nat × Nat)) : Dev :=
  let d := headerCmd d l (fieldAt h 18 1)
  let chain := chainMode d l
  let ack := fieldAt h 12 4
  let d := modLink (partnerLanes d l h) l (fun x => { x with
    sent := if chain then x.sent else x.sent.filter (fun f => ¬ ((ack + 2 ^ 32 - f.cycle) % 2 ^ 32 < 2 ^ 31)) })
  let d := headerIn d l h frac
  if chain ∧ isHead d l = false then
    let m := muteStep d l
    forwardHeader m.2 l h m.1 late
  else d

/-- The port receives frames: up, or dropped from its chain. -/
def receives (d : Dev) (l : Nat) : Bool := l < 4 && (linkUp d l || linkState d l == 6)

/-- A header whose CRC fails gives no credits and no anchor; its cycle still counts (R518, R519), and a chain node uses its slots in
it. DEDUCED: log entry 61. -/
def badHeader (d : Dev) (l : Nat) (late : List (Nat × Nat)) : Dev :=
  let d := modLink (bump d (linkIdx l) 0x1B) l (fun x => { x with words := [], used := [], rxCycle := (x.rxCycle + 1) % 2 ^ 32 })
  if receives d l ∧ chainMode d l ∧ isHead d l = false then
    let m := muteStep (countBoth (modLink d l (fun x => { x with old := none })) l) l
    sendSlots m.2 l m.1 late
  else d

/-- The CRC of the last four of n bytes checks. -/
def crcOk (b : List Byte) (n : Nat) : Bool := b.length = n && fieldAt b (n - 4) 4 = crc32 (b.take (n - 4))

/-- The port's lanes carry symbols: it trains, is up, or is dropped. -/
def hears (d : Dev) (l : Nat) : Bool := l < 4 && (receives d l || linkState d l == 1)

/-- What a marker's measurements leave on port l: CODE_ERRORS, and the ratio estimate of a chain node. -/
def measure (d : Dev) (l : Nat) (m : Marker) : Dev :=
  let d := if m.codeErrors = 0 then d else bump d (linkIdx l) 0x0F m.codeErrors
  if chainMode d l ∧ isHead d l = false then modLink d l (fun x => { x with ratios := (m.ratio :: x.ratios).take 2 }) else d

/-- A valid header in training (R508): a chain node forwards it, so that it returns to the head (R528). -/
def trainHeader (d : Dev) (l : Nat) (h : List Byte) (frac : Nat) : Dev :=
  let d := headerIn d l h frac
  if chainMode d l ∧ isHead d l = false then forwardHeader d l h true [] else d

/-- CYCLE_HEADER_RX: a marker and the header's 64 bytes on port l, with what the port measured. DEDUCED: log entry 51. -/
def execCycleHeaderRx (l : Nat) (h : List Byte) (m : Marker) (s : State) : Out :=
  onAwake (fun d =>
    if hears d l then
      let d := measure d l m
      if crcOk h 64 = false then badHeader d l m.late
      else if receives d l then takeHeader d l h m.frac m.late
      else trainHeader d l h m.frac
    else d) s

/-! ### Receiving frames (R518, R522, R526, R527, R534) -/

/-- Which of the port's data rings queue q is. -/
def ringOf (d : Dev) (l q : Nat) : Option Nat := (rangeFrom 0 3).find? (fun k => dataRing d l k = q)

/-- Items of a data frame. -/
def itemsIn (b : List Byte) : List (BitVec 128) :=
  (rangeFrom 0 (min 4 (fieldAt b 4 1))).map (fun i => BitVec.ofNat 128 (fieldAt b (8 + 16 * i) 16))

/-- A data frame whose CRC checks. -/
def takeData (d : Dev) (l node : Nat) (b : List Byte) : Dev :=
  let q := fieldAt b 0 2 % 4096
  let n := fieldAt b 2 2
  let its := itemsIn b
  match (if q = 0xFFFF then none else ringOf d l q) with
  | none => creditOverrun d l 0
  | some k =>
    if (mget [] (linkOf d l).dseqIn q).contains n then d
    else
      let c := takeCredit d l node (1 + k)
      if c.1 = false ∨ qRoom d q < its.length then creditOverrun c.2 l 0
      else
        let d := modLink c.2 l (fun x => { x with dseqIn := mput [] x.dseqIn q (lastN 64 (mget [] x.dseqIn q ++ [n])) })
        qPushAll d q its

/-- DATA_FRAME_RX: 76 bytes from a node on port l. -/
def execDataFrameRx (l node : Nat) (off : Int) (b : List Byte) (s : State) : Out :=
  onAwake (fun d =>
    if receives d l then
      let g := guardTest d l node off
      let d := forwardFrame g.2 l node b
      if g.1 = false then g.2
      else if crcOk b 76 then takeData d l node b else bump d (linkIdx l) 0x1B
    else d) s

/-- The input stream that takes a frame. -/
def inStream (d : Dev) (l node s : Nat) : Option Nat :=
  let x := lf d l (0x30 + s)
  if stOn x ∧ (chainMode d l = false ∨ stSrc x = node) then some (stRing x) else none

/-- Split words into whole items of four and the rest (R526). -/
def wordItems : Nat → List Nat → List (BitVec 128) × List Nat
  | 0, l => ([], l)
  | n + 1, l =>
    if l.length < 4 then ([], l)
    else
      let r := wordItems n (l.drop 4)
      (BitVec.ofNat 128 ((l.take 4).foldr (fun w a => w + 2 ^ 32 * a) 0) :: r.1, r.2)

/-- An isochronous frame whose CRC checks. -/
def takeIso (d : Dev) (l node : Nat) (b : List Byte) : Dev :=
  let s := fieldAt b 5 1 % 16
  let key : Nat × Nat := (fieldAt b 0 5, fieldAt b 5 1 / 16)
  match inStream d l node s with
  | none => bump d (linkIdx l) 0x17
  | some q =>
    let x := linkOf d l
    if (mget [] x.isoSeen s).contains key then d
    else
      let n := min 16 (fieldAt b 6 1 * fieldAt b 7 1)
      let ws := mget [] x.part s ++ (rangeFrom 0 n).map (fun i => fieldAt b (8 + 4 * i) 4)
      let r := wordItems 8 ws
      if qRoom d q < r.1.length then bump d (linkIdx l) 0x17
      else
        let d := modLink d l (fun x => { x with
          part := mput [] x.part s r.2, isoSeen := mput [] x.isoSeen s (mget [] x.isoSeen s ++ [key]) })
        qPushAll d q r.1

/-- ISO_FRAME_RX: 76 bytes from a node on port l. DEDUCED: log entry 45. -/
def execIsoFrameRx (l node : Nat) (off : Int) (b : List Byte) (s : State) : Out :=
  onAwake (fun d =>
    if receives d l then
      let g := guardTest d l node off
      let d := forwardFrame g.2 l node b
      if g.1 = false then g.2
      else if crcOk b 76 then takeIso d l node b else bump d (linkIdx l) 0x1B
    else d) s

/-- CHAIN_FRAME_FORWARD: a frame of an owner passes the device, or returns to it and is stripped (R529). -/
def execChainFrameForward (l owner : Nat) (off : Int) (b : List Byte) (s : State) : Out :=
  onAwake (fun d =>
    if receives d l && chainMode d l then
      let g := guardTest d l owner off
      if g.1 = false then g.2
      else if owner = ownNode d l then
        modLink g.2 l (fun x => { x with sent := match x.sent.find? (fun f => f.frame.bytes = b) with
          | some f => x.sent.erase f
          | none => x.sent })
      else forwardFrame g.2 l owner b
    else d) s

/-! ### Training, lanes, up and down (R508-R510, R539-R545) -/

/-- NODE_STATE of every node of port l: `st` in the chain, absent beyond it or without one. -/
def setNodes (d : Dev) (l st : Nat) : Dev :=
  let count := if chainMode d l then nodeCount d l else 0
  (rangeFrom 0 8).foldl (fun d n => oSet d (nodeIdx l n) 0x01 (if n < count then st else 0)) d

/-- Port l trains from its first step: no lane is good yet, no header has come, and the nodes of its chain are joining (R549).
DEDUCED: log entry 61. -/
def startTraining (d : Dev) (l : Nat) : Dev :=
  setNodes (modLink (oSet (setLinkState d l 1) (linkIdx l) 0x0A 0) l (fun x => { x with
    trained := false, words := [], used := [], rxCycle := 0, mapCrc := none })) l 1

/-- LINK_TRAINING_START. -/
def execLinkTrainingStart (l : Nat) (s : State) : Out :=
  onAwake (fun d => if l < 4 ∧ lf d l 0x01 = 1 ∧ linkState d l = 0 then startTraining d l else d) s

/-- TRAINING_TIMEOUT: training restarts from its first step, in LINK_STATE 1. -/
def execTrainingTimeout (l : Nat) (s : State) : Out :=
  onAwake (fun d => if l < 4 ∧ linkState d l = 1 then startTraining d l else d) s

/-- LINK_UP with the mask of lanes that completed training, whether the partner has LANES_CFG 2, and what step 4 measured
on lane 0 or the only lane. -/
def execLinkUp (l lanes : Nat) (partner2 : Bool) (t : Trip) (s : State) : Out :=
  onAwake (fun d =>
    if l < 4 ∧ linkState d l = 1 then
      let mask := lanesUp d l lanes partner2
      let d := setLinkState d l (if mask = 3 then 2 else 3)
      let d := oSet (oSet d (linkIdx l) 0x0A mask) (linkIdx l) 0x0B (pathDelay t)
      let other := if mask ≠ 3 ∧ lf d l 0x05 = 2 ∧ partner2 then some (2 - mask) else none
      let d := modLink d l (fun x => { x with failed := other, mute := 0, cmds := [], landed := [], lock := 0, both := none })
      startLinkSession (setNodes d l 2) l
    else d) s

/-- Port l leaves the link: its session ends, its buffers are empty, Link time is held over (R62). -/
def leaveLink (d : Dev) (l st : Nat) : Dev :=
  let d := endSession d l
  let d := modLink d l (fun _ => Link.zero)
  let d := oSet (setLinkState d l st) (linkIdx l) 0x0A 0
  let d := (rangeFrom 0 8).foldl (fun d n => oSet d (nodeIdx l n) 0x01 0) d
  if rs d 0x2010 0x07 = l + 1 then oSet d 0x2020 0x0D 1 else d

/-- The port goes down without being disabled (R543). -/
def portDown (d : Dev) (l : Nat) : Dev :=
  if linkUp d l ∨ linkState d l = 6 then bump (leaveLink d l 0) (linkIdx l) 0x0D else d

/-- PORT_DOWN. -/
def execPortDown (l : Nat) (s : State) : Out := onAwake (fun d => if l < 4 then portDown d l else d) s

/-- LANE_FAIL: the fallback to one lane (R539, R541), or the port goes down with its last lane; a failed lane that was returning loses
its lock. A dropped port stays in LINK_STATE 6. DEDUCED: log entry 61. -/
def execLaneFail (l lane : Nat) (s : State) : Out :=
  onAwake (fun d =>
    if l < 4 ∧ lane < 2 then
      if twoLanes d l then
        let d := if linkState d l = 2 then setLinkState d l 4 else d
        let d := modLink d l (fun x => { x with failed := some lane, lock := 0, both := none, two := false })
        let d := bump (oSet d (linkIdx l) 0x0A (2 - lane)) (linkIdx l) 0x0E
        addFault d 0x05 (0xC0 + l) 3 0xFF 0 lane 0
      else if receives d l ∧ laneOf d l 0 = lane then portDown d l
      else if receives d l ∧ (linkOf d l).failed = some lane then
        oSet (modLink d l (fun x => { x with lock := 0 })) (linkIdx l) 0x0A (2 - lane)
      else d
    else d) s

/-- Frames that go out again after a fallback, iso frames first (R540). -/
def resendOrder (f : Nat) (l : List SentFrame) : List TxFrame :=
  let hit := (l.filter (fun x => x.lane = f)).map (·.frame)
  hit.filter isIso ++ hit.filter (fun x => !isIso x)

/-- LANE_REALIGNED (R539): the frames of the failed lane that nobody has acknowledged go out again in their slots (R540). -/
def execLaneRealigned (l : Nat) (s : State) : Out :=
  onAwake (fun d =>
    match (linkOf d l).failed with
    | some f =>
      if l < 4 ∧ linkState d l = 4 then
        modLink (setLinkState d l 3) l (fun x => { x with
          sent := x.sent.filter (fun y => y.lane ≠ f), again := x.again ++ resendOrder f x.sent })
      else d
    | none => d) s

/-- LANE_RESTORED (R542): the next cycle of its own is the 8th or a later one after the partner showed both lanes. DEDUCED: log entry 61. -/
def execLaneRestored (l : Nat) (s : State) : Out :=
  onAwake (fun d =>
    match (linkOf d l).failed with
    | some f =>
      if l < 4 ∧ oneLane d l ∧ lf d l 0x05 = 2 ∧ 7 ≤ (linkOf d l).both.getD 0 then
        let d := modLink (if linkState d l = 3 then setLinkState d l 2 else d) l (fun x => { x with failed := none, both := none, two := true })
        addFault d 0x06 (0xC0 + l) 4 0xFF 0 f 0
      else d
    | none => d) s

/-- CHAIN_RESYNC, CHAIN_DROP and CHAIN_REJOIN_CMD: a header's command to node n reaches the device. -/
def execChainResync (l n : Nat) (s : State) : Out :=
  onAwake (fun d => if receives d l && chainMode d l then resyncNode d l (n % 8) else d) s
def execChainDrop (l n : Nat) (s : State) : Out :=
  onAwake (fun d => if receives d l && chainMode d l then dropNode d l (n % 8) else d) s
def execChainRejoinCmd (l n : Nat) (s : State) : Out :=
  onAwake (fun d => if receives d l && chainMode d l then rejoinNode d l (n % 8) else d) s

/-- SERVICE_FRAME_DISCARD: bytes of a service frame whose CRC or length fails (04 R110), from a node on a Link port. -/
def execServiceFrameDiscard (f : BadFrame) (s : State) : Out :=
  onAwake (fun d =>
    let p := f.port
    let g := if receives d p then guardTest d p f.node f.off else (true, d)
    let d := if receives d p then forwardFrame g.2 p f.node f.bytes else d
    if g.1 = false then g.2
    else if p < 8 ∧ (port d p).session then bump d (0x1000 + p) 0x0B
    else d) s

/-! ### Output streams (R523-R525) -/

/-- The sample of output channel c of port l at sample i of the block that leaves, from the bus (R523). -/
def linkSample (d : Dev) (l c : Nat) (par i : Nat) : Int :=
  let ch := rs d (linkIdx l) (0x40 + c)
  if ch < 128 then sat (busRead d ch par i) 32 else 0

/-- A sample frame enters the buffer of stream s (R524); the oldest one leaves a full buffer unsent, an underrun of its
block (R525, 03 R89). -/
def streamIn (l s six : Nat) (ws : List Int) (d : Dev) : Dev :=
  if linkUp d l then
    let buf := mget [] (linkOf d l).unsent s
    if 64 ≤ buf.length then
      let blk := ((buf.head?.map (·.1)).getD six) / blockLen d
      let d := modLink d l (fun x => { x with unsent := mput [] x.unsent s (buf.drop 1 ++ [(six, ws)]) })
      if mget none (linkOf d l).dropBlock s = some blk then d
      else
        let d := modLink d l (fun x => { x with dropBlock := mput none x.dropBlock s (some blk) })
        voidAt (bump (bump d 0x0110 0x03) (linkIdx l) 0x16) 3 blk
    else modLink d l (fun x => { x with unsent := mput [] x.unsent s (buf ++ [(six, ws)]) })
  else d

end Sys2Proof.Machine
end

