-- ==== Sys2Proof/Machine/Events.lean ====
section
/-!
DEFINITION. Sys2Proof/Machine/Events.lean: events on their way into the part event queues (11 R309-R318, R739): layout
of an EVENT frame, stamps, items, identity replies, notifications, and the MIDI 1.0 parser.
-/
namespace Sys2Proof.Machine

/-! ### EVENT frames (04 R120) -/

/-- Packets of an EVENT frame; none where its words end inside a packet. -/
def eventPkts (f : Frame) : Option (List Packet) := packetsOf 16 (eventWords (f.payload.drop 12))

/-- The frame breaks a layout rule of R120. -/
def eventBad (f : Frame) : Bool :=
  let n := f.payload.length
  n < 16 || n % 4 != 0 || 2 < fieldAt f.payload 0 1 || fieldAt f.payload 1 3 != 0 ||
  (fieldAt f.payload 0 1 == 0 && fieldAt f.payload 4 8 != 0) || (eventPkts f).isNone

/-- A packet can create a queue item (R739). -/
def makesItem (p : Packet) : Bool := umpMt (pkt0 p) = 2 || umpMt (pkt0 p) = 4

/-- Items of one packet, number k of its frame, from source src at SIX six (R264, R265, R318). -/
def itemsOfPkt (d : Dev) (src six k : Nat) (p : Packet) : List EvItem :=
  (matchParts d src p).map (fun q => ⟨q, k, six, (umpClass (pkt0 p)).getD 0, src, pkt0 p, pkt1 p⟩)

/-- Items of a packet list. -/
def itemsOfPkts (d : Dev) (src six : Nat) : Nat → List Packet → List EvItem
  | _, [] => []
  | k, p :: r => itemsOfPkt d src six k p ++ itemsOfPkts d src six (k + 1) r

/-- What waits for queue room: a frame or message from source src at SIX six. -/
def waitOf (d : Dev) (src six : Nat) (untimed : Bool) (f : Frame) (ps : List Packet) : EvWait :=
  ⟨f, untimed, ps.length, itemsOfPkts d src six 0 ps, ps.filterMap inquiryOf⟩

/-- Enter the items; an untimed frame is stamped now (R40). -/
def enterWait (d : Dev) (w : EvWait) : Dev :=
  if w.untimed then
    let six := sixNow d + untimedDelay d
    evEnterAll d true (w.items.map (fun i => { i with six := six }))
  else evEnterAll d false w.items

/-- A wait for room begins: each queue without room counts it (16 R493). -/
def countWait (d : Dev) (w : EvWait) : Dev :=
  let qs := (w.items.map (·.part)).eraseDups
  (qs.filter (fun q => qRoom d q < (w.items.filter (fun i => i.part = q)).length)).foldl fullWait d

/-! ### Notifications that Root sends (04 R123) -/

/-- Send a NOTIFY: its SEQ is the port's notification count. DESIGN CHOICE: log entry 9. -/
def sendNote (d : Dev) (p node idx sub block : Nat) (v : List Byte) : Dev :=
  let r := noteFrame d p idx sub block v
  sendFrame r.1 p node r.2

/-! ### The identity reply (R315) -/

/-- Data bytes of the reply to an inquiry of group g. -/
def identityBytes (g : Nat) : List Nat :=
  [0x7E, g, 6, 2, 0, 0x29, 0x53, 1, 0, 0, 2, 1, Config.fwMinor % 128, Config.fwPatch % 128, siliconRev % 128]

/-- A 7-bit SysEx packet of group g with a status and up to six data bytes, as two words. -/
def sysexPkt (g st : Nat) (b : List Nat) : List Nat :=
  [0x30000000 + g * 2 ^ 24 + st * 2 ^ 20 + b.length * 2 ^ 16 + nth 0 b 0 * 256 + nth 0 b 1,
   nth 0 b 2 * 2 ^ 24 + nth 0 b 3 * 2 ^ 16 + nth 0 b 4 * 256 + nth 0 b 5]

/-- The reply's 24 bytes. -/
def identityUmp (g : Nat) : List Byte :=
  let b := identityBytes g
  (sysexPkt g 1 (b.take 6) ++ sysexPkt g 2 ((b.drop 6).take 6) ++ sysexPkt g 3 (b.drop 12)).flatMap (toLE 4)

/-- The replies of a frame, in packet order. -/
def sendReplies (d : Dev) (p node : Nat) (gs : List Nat) : Dev :=
  gs.foldl (fun d g => sendNote d p node 0 0 (blockNow d) (identityUmp g)) d

/-! ### MIDI 1.0 bytes (R316) -/

/-- What a byte completes: a channel message, or a SysEx. -/
inductive MidiOut
  | nothing
  | message (st : Nat) (data : List Nat)
  | sysex (l : List Nat)
deriving DecidableEq, Repr

/-- Data bytes of a channel message. -/
def midiLen (st : Nat) : Nat := if st / 16 = 0xC ∨ st / 16 = 0xD then 1 else 2

/-- A byte that arrived without error. A 0xF7 outside a SysEx discards the message in progress and keeps the running status.
DESIGN CHOICE: log entry 67. -/
def midiByte (m : Midi) (b : Nat) : Midi × MidiOut :=
  if 0xF8 ≤ b then (m, .nothing)
  else if b = 0xF7 then
    if m.sysex then ({ m with sysex := false, sx := [] }, .sysex m.sx) else ({ m with data := [] }, .nothing)
  else if b = 0xF0 then (⟨0, [], true, []⟩, .nothing)
  else if 0xF1 ≤ b then (⟨0, [], false, []⟩, .nothing)
  else if 0x80 ≤ b then (⟨b, [], false, []⟩, .nothing)
  else if m.sysex then ({ m with sx := if m.sx.length < 8 then m.sx ++ [b] else m.sx }, .nothing)
  else if m.status = 0 then (m, .nothing)
  else
    let l := m.data ++ [b]
    if midiLen m.status ≤ l.length then ({ m with data := [] }, .message m.status l) else ({ m with data := l }, .nothing)

/-- A byte with an error, or a break, discards the message in progress and keeps the running status (21 R639). -/
def midiError (m : Midi) : Midi := { m with data := [], sysex := false, sx := [] }

/-- The MT 0x2 packet of a message from Un (R310). -/
def midiPkt (n st : Nat) (l : List Nat) : Packet :=
  [0x20000000 + n * 2 ^ 24 + st * 2 ^ 16 + nth 0 l 0 * 256 + nth 0 l 1]

end Sys2Proof.Machine
end

