-- ==== Sys2Proof/Machine/Uarts.lean ====
section
/-!
DEFINITION. Sys2Proof/Machine/Uarts.lean: the UARTs (21 R631-R642): characters, FIFOs, flow control, ring items, the
MIDI receiver, the framing of host mode, and the transmitter.
-/
namespace Sys2Proof.Machine

/-- An RS field of UART n, and its counters. -/
def uf (d : Dev) (n sub : Nat) : Nat := rs d (0x7E00 + n) sub
def uBump (d : Dev) (n sub : Nat) : Dev := bump d (0x7E00 + n) sub

/-- UART_MODE. -/
def uMode (d : Dev) (n : Nat) : Nat := uf d n 0x01

/-- DATA_BITS, PARITY and FLOW as the mode uses them (R631). -/
def uBits (d : Dev) (n : Nat) : Nat := if uMode d n = 2 then uf d n 0x04 else 8
def uParity (d : Dev) (n : Nat) : Nat := if uMode d n = 1 then 0 else uf d n 0x05
def uFlow (d : Dev) (n : Nat) : Bool := 2 ≤ uMode d n && uf d n 0x07 == 1

/-- STOP_BITS as the mode uses it. -/
def uStop (d : Dev) (n : Nat) : Nat := if uMode d n = 1 then 1 else uf d n 0x06

/-- The bits of character c on UnTX (R631): start, data from the least significant bit, parity, stop bits. -/
def charBits (d : Dev) (n c : Nat) : List Bool :=
  let data := (rangeFrom 0 (uBits d n)).map (bitOf c)
  let odd := (data.filter id).length % 2 = 1
  let parity := match uParity d n with
    | 0 => []
    | 1 => [decide odd]
    | _ => [decide (¬ odd)]
  false :: data ++ parity ++ List.replicate (uStop d n) true

/-- Level of UnTX in bit period k of the character in transmission, which keeps the bits with which it began (R642); the line idles
high, also while the unit is off (R631). -/
def txLine (d : Dev) (n k : Nat) : Bool := match (uartOf d n).sending with
  | some l => nth true l k
  | none => true

/-- RX_FIFO_FILL: characters in the receive FIFO. -/
def rxFill (u : Uart) : Nat := (u.rx.filter (fun x => x.2 / 4 % 2 = 0)).length

/-! ### Transmitter (R635-R637, R639, R640) -/

/-- Characters of a transmit item. -/
def itemChars (d : Dev) (n : Nat) (v : BitVec 128) : List Nat :=
  let b := toLE 16 v.toNat
  if uMode d n = 2 ∧ uf d n 0x04 = 9 then
    (rangeFrom 0 (min 7 (fieldAt b 0 1))).map (fun i => fieldAt b (2 + 2 * i) 2 % 512)
  else (rangeFrom 0 (min 14 (fieldAt b 0 1))).map (fun i => fieldAt b (2 + i) 1 % 2 ^ uBits d n)

/-- Characters of waiting frames and replies move into the FIFO while it has room. -/
def fillFrames : Nat → Dev → Nat → Dev
  | 0, d, _ => d
  | k + 1, d, n =>
    let u := uartOf d n
    match u.frames with
    | [] => d
    | [] :: r =>
      let d := modUart d n (fun u => { u with frames := r })
      fillFrames k (if uMode d n = 3 then bump d (0x7E10 + n) 0x02 else d) n
    | (c :: l) :: r =>
      if u.tx.length < 64 then fillFrames k (modUart d n (fun u => { u with tx := u.tx ++ [c], frames := l :: r })) n
      else d

/-- Transmit items move into the FIFO while it has room for all their characters. -/
def fillItems : Nat → Dev → Nat → Dev
  | 0, d, _ => d
  | k + 1, d, n =>
    let q := uf d n 0x0B
    if q = 0xFFFF ∨ ¬ (uMode d n = 1 ∨ uMode d n = 2) then d
    else match engineItems d q with
      | [] => d
      | v :: _ =>
        let cs := itemChars d n v
        if (uartOf d n).tx.length + cs.length ≤ 64 then
          let d := takeOut d q 1
          let d := modUart d n (fun u => { u with tx := u.tx ++ cs })
          fillItems k (resumeProducers d q) n
        else d

/-- The transmitter starts its next character: XON or XOFF first, then the FIFO unless paused (R636). -/
def startChar (d : Dev) (n : Nat) : Dev :=
  let u := uartOf d n
  if u.sending.isSome ∨ uMode d n = 0 then d
  else match u.flow, u.tx with
    | c :: r, _ => modUart d n (fun u => { u with sending := some (charBits d n c), flow := r })
    | [], c :: r =>
      if oGet d (0x7E00 + n) 0x12 = 1 then d else modUart d n (fun u => { u with sending := some (charBits d n c), tx := r })
    | [], [] => d

/-- The notifications of UART n's port leave once no frame waits before them (04 R123). DESIGN CHOICE: log entry 60. -/
def fillNotes : Nat → Dev → Nat → Dev
  | 0, d, _ => d
  | k + 1, d, n =>
    match (port d (4 + n)).notes with
    | [] => d
    | x :: r =>
      if (uartOf d n).frames = [] ∧ (uartOf d n).tx.length < 64 then
        let y := noteFrame (modPort d (4 + n) (fun z => { z with notes := r })) (4 + n) x.idx x.sub x.block x.value
        fillNotes k (fillFrames 128 (sendFrame y.1 (4 + n) x.node y.2) n) n
      else d

/-- The transmit side of UART n looks for work. -/
def txPump (d : Dev) (n : Nat) : Dev :=
  let d := fillNotes 64 (fillFrames 128 d n) n
  let d := if (uartOf d n).frames = [] then fillItems 64 d n else d
  startChar d n

/-- Host mode asks for XOFF: the port's service queues are full (04 R113). -/
def hostFull (d : Dev) (n : Nat) : Bool := uMode d n == 3 && serviceFull d (4 + n)

/-- XOFF at a fill of 32 or for full service queues, XON at 8 or below without them, once per change of state (R636). -/
def flowCheck (d : Dev) (n : Nat) : Dev :=
  let u := uartOf d n
  if uFlow d n = false then d
  else if (32 ≤ rxFill u ∨ hostFull d n) ∧ u.xoff = false then
    startChar (modUart d n (fun u => { u with xoff := true, flow := u.flow ++ [uf d n 0x09] })) n
  else if rxFill u ≤ 8 ∧ hostFull d n = false ∧ u.xoff then
    startChar (modUart d n (fun u => { u with xoff := false, flow := u.flow ++ [uf d n 0x08] })) n
  else d

/-! ### General mode (R637, R638) -/

/-- Characters that an item holds. -/
def itemCap (d : Dev) (n : Nat) : Nat := if uf d n 0x04 = 9 then 7 else 14

/-- A receive item's 16 bytes. -/
def packItem (d : Dev) (n : Nat) (x : UItem) : BitVec 128 :=
  let w := if uf d n 0x04 = 9 then 2 else 1
  BitVec.ofNat 128 (fromLE (toLE 1 x.chars.length ++ toLE 1 x.flags ++ x.chars.flatMap (toLE w)))

/-- A closed item is written, or waits for room in RX_RING. -/
def closeItem (d : Dev) (n : Nat) (x : UItem) : Dev :=
  let d := modUart d n (fun u => { u with item := ⟨[], 0⟩ })
  match qPutIf d (uf d n 0x0A) (packItem d n x) with
  | some d => d
  | none => modUart (fullWait d (uf d n 0x0A)) n (fun u => { u with closed := some x })

/-- A character enters the item, or a break ends it; FLAGS bit 2 marks an item before whose first character some were lost.
DEDUCED: log entry 43. -/
def itemChar (d : Dev) (n c fl : Nat) : Dev :=
  let u := uartOf d n
  if fl / 4 % 2 = 1 then closeItem d n { u.item with flags := u.item.flags ||| 8 }
  else
    let first := u.item.chars = []
    let gap := u.gap || 8 ≤ fl
    let x : UItem := ⟨u.item.chars ++ [c], u.item.flags ||| fl % 4 ||| (if first ∧ gap then 4 else 0)⟩
    let d := modUart d n (fun u => { u with item := x, gap := if first then false else gap })
    if itemCap d n ≤ x.chars.length then closeItem d n x else d

/-! ### MIDI mode (R639, 11 R316, R317) -/

/-- A completed message enters its queues untimed, or waits for room. -/
def midiMessage (d : Dev) (n st : Nat) (l : List Nat) : Dev :=
  if mediaRuns d then
    let f : Frame := ⟨0, 0, 0, 0, 0, 0, []⟩
    let w := waitOf d (4 + n) 0 true f [midiPkt n st l]
    if evRoom d w.items then enterWait d w
    else modUart (countWait d w) n (fun u => { u with midiWait := some w })
  else d

/-- A SysEx equal to an identity inquiry is answered through the transmit FIFO (11 R315). -/
def midiSysex (d : Dev) (n : Nat) (l : List Nat) : Dev :=
  if l.length = 4 ∧ nth 0 l 0 = 0x7E ∧ (nth 0 l 1 = 0x7F ∨ nth 0 l 1 = n) ∧ nth 0 l 2 = 6 ∧ nth 0 l 3 = 1 then
    txPump (modUart d n (fun u => { u with frames := u.frames ++ [0xF0 :: identityBytes n ++ [0xF7]] })) n
  else d

/-- One received byte. -/
def midiChar (d : Dev) (n c fl : Nat) : Dev :=
  if fl ≠ 0 then modUart d n (fun u => { u with midi := midiError u.midi })
  else
    let r := midiByte (uartOf d n).midi c
    let d := modUart d n (fun u => { u with midi := r.1 })
    match r.2 with
    | .nothing => d
    | .message st l => midiMessage d n st l
    | .sysex l => midiSysex d n l

/-! ### Host mode (R640) -/

/-- A candidate is aborted. -/
def hostAbort (d : Dev) (n : Nat) : Dev :=
  modUart (bump d (0x7E10 + n) 0x03) n (fun u => { u with bad := true, cand := some [], esc := false })

/-- One received character: the candidate that its flag closes, if any. DEDUCED: log entry 43. -/
def hostChar (d : Dev) (n c fl : Nat) : Dev × Option (List Byte) :=
  let u := uartOf d n
  match u.cand with
  | none => if c = 0x7E ∧ fl = 0 then (modUart d n (fun u => { u with cand := some [], esc := false, bad := false }), none) else (d, none)
  | some l =>
    if fl ≠ 0 then (if u.bad then d else hostAbort d n, none)
    else if c = 0x7E then
      let d' := if u.esc && !u.bad then hostAbort d n else d
      let done := if u.esc || u.bad || l.isEmpty then none else some l
      (modUart d' n (fun u => { u with cand := some [], esc := false, bad := false }), done)
    else if u.bad then (d, none)
    else if c = 0x7D ∧ u.esc = false then (modUart d n (fun u => { u with esc := true }), none)
    else
      let b := BitVec.ofNat 8 (if u.esc then c ^^^ 0x20 else c)
      if 76 ≤ l.length then (hostAbort d n, none)
      else (modUart d n (fun u => { u with cand := some (l ++ [b]), esc := false }), none)

/-- A candidate as a request (R110): none when its length or CRC fails. -/
def hostFrame (d : Dev) (n : Nat) (b : List Byte) : Dev × Option (Nat × Frame) :=
  if b.length < 12 ∨ b.length ≠ 12 + fieldAt b 7 1 then (bump d (0x1004 + n) 0x0B, none)
  else
    let d := bump d (0x7E10 + n) 0x01
    if crcOk b b.length then
      (d, some (fieldAt b 2 1, ⟨0, 0, fieldAt b 0 2, fieldAt b 3 1, fieldAt b 4 2, fieldAt b 6 1, (b.drop 8).take (fieldAt b 7 1)⟩))
    else (bump d (0x1004 + n) 0x0B, none)

/-! ### Receiver (R634-R636) -/

/-- Flags of a character from its parity and stop samples (R634): 4 for a break. -/
def charFlags (d : Dev) (n c : Nat) (parity stop : Bool) : Nat :=
  let p := uParity d n
  let ones := (((rangeFrom 0 (uBits d n)).filter (fun i => bitOf c i)).length + b2n parity) % 2
  if c % 2 ^ uBits d n = 0 ∧ (p = 0 ∨ parity = false) ∧ stop = false then 4
  else b2n (!stop) + (if (p = 1 ∧ ones = 1) ∨ (p = 2 ∧ ones = 0) then 2 else 0)

/-- Count a character. -/
def countChar (d : Dev) (n fl : Nat) : Dev :=
  if 4 ≤ fl then uBump d n 0x18
  else
    let d := uBump d n 0x14
    let d := if fl % 2 = 1 then uBump d n 0x15 else d
    if 2 ≤ fl then uBump d n 0x16 else d

/-- A character that flow control consumes. -/
def isFlowChar (d : Dev) (n c fl : Nat) : Bool := uFlow d n && fl < 4 && (c == uf d n 0x08 || c == uf d n 0x09)

/-- The receive side may take its next character: no closed item or message waits. -/
def rxFree (d : Dev) (n : Nat) : Bool :=
  let u := uartOf d n
  (uMode d n == 1 && u.midiWait.isNone) || (uMode d n == 2 && u.closed.isNone) || uMode d n == 3

/-- Take characters from the receive FIFO while the mode can; the candidates of host mode that close, in order.
DEDUCED: log entry 43. -/
def drainRx : Nat → Dev → Nat → Dev × List (List Byte)
  | 0, d, _ => (d, [])
  | k + 1, d, n =>
    match (uartOf d n).rx with
    | [] => (d, [])
    | (c, fl) :: r =>
      if rxFree d n then
        let d := modUart d n (fun u => { u with rx := r })
        if uMode d n = 1 then drainRx k (midiChar d n c fl) n
        else if uMode d n = 2 then drainRx k (itemChar d n c fl) n
        else
          let h := hostChar d n c fl
          let t := drainRx k h.1 n
          (t.1, h.2.toList ++ t.2)
      else (d, [])

/-- A character that has been counted passes to the receiver under the unit's mode. -/
def takeChar (d : Dev) (n c fl : Nat) : Dev × List (List Byte) :=
  if uMode d n = 0 then (d, [])
  else
    let c := c % 2 ^ uBits d n
    if isFlowChar d n c fl then
      let d := oSet d (0x7E00 + n) 0x12 (b2n (c = uf d n 0x09))
      (startChar d n, [])
    else
      let u := uartOf d n
      let d := if fl < 4 ∧ 64 ≤ rxFill u then modUart (uBump d n 0x17) n (fun u => { u with lost := true })
               else
                 let mark := if u.lost ∧ fl < 4 ∧ uMode d n = 2 then 8 else 0
                 modUart d n (fun u => { u with rx := u.rx ++ [(c, fl + mark)], lost := if fl < 4 then false else u.lost })
      let r := drainRx 128 d n
      (flowCheck r.1 n, r.2)

/-- A character completes: it is counted and taken (R634). -/
def rxChar (d : Dev) (n c fl : Nat) : Dev × List (List Byte) :=
  if uMode d n = 0 then (d, []) else takeChar (countChar d n fl) n c fl

/-- What was held back goes on: a waiting message or item enters when there is room, then later characters. -/
def uartResume (d : Dev) (n : Nat) : Dev :=
  let d := match (uartOf d n).midiWait with
    | some w => if evRoom d w.items then enterWait (modUart d n (fun u => { u with midiWait := none })) w else d
    | none => d
  flowCheck (drainRx 128 d n).1 n

/-- A boundary's stop: a message that waits enters nothing (11 R317, R318). -/
def dropMidiWait (d : Dev) (n : Nat) : Dev := uartResume (modUart d n (fun u => { u with midiWait := none })) n

/-- UART_RX_TIMEOUT: the item is closed (R637). -/
def execUartRxTimeout (n : Nat) (s : State) : Out :=
  onAwake (fun d =>
    let u := uartOf d n
    if n < 4 ∧ uMode d n = 2 ∧ uf d n 0x0C ≠ 0 ∧ u.item.chars ≠ [] ∧ u.closed = none then
      flowCheck (drainRx 128 (closeItem d n { u.item with flags := u.item.flags ||| 16 }) n).1 n
    else d) s

/-- UART_RX_ITEM_ENTRY: a closed item that waited is written (R638). -/
def execUartRxItemEntry (n : Nat) (s : State) : Out :=
  onAwake (fun d =>
    match (uartOf d n).closed with
    | some x =>
      match qPutIf d (uf d n 0x0A) (packItem d n x) with
      | some d => uartResume (modUart d n (fun u => { u with closed := none })) n
      | none => d
    | none => d) s

/-- The receiver of UART n runs: in sleep with SLEEP_RX only (R641). -/
def receiving (d : Dev) (n : Nat) : Bool :=
  uMode d n != 0 && match d.power.phase with
    | .awake => true
    | .asleep => uf d n 0x0D == 1
    | .held _ | .stopped => false

/-- FALSE_START (R633). -/
def execFalseStart (n : Nat) (s : State) : Out :=
  onDev (fun d => if n < 4 ∧ receiving d n then uBump d n 0x19 else d) s

/-- The effect of a write of TX_RESUME. -/
def txResume (d : Dev) (n : Nat) : Dev := txPump (oSet d (0x7E00 + n) 0x12 0) n

/-! ### Mode changes (R642) -/

/-- Fields whose change restarts a unit. -/
def uartSubs : List Nat := [0x01, 0x02, 0x04, 0x05, 0x06, 0x07, 0x0A, 0x0B]

/-- The switch changed the unit. -/
def uartChanged (old new : Version) (n : Nat) : Bool :=
  uartSubs.any (fun x => vGet old (0x7E00 + n) x != vGet new (0x7E00 + n) x)

/-- A unit starts under its new values; `old` is its mode before the switch. -/
def uartSwitch (d : Dev) (n old : Nat) : Dev :=
  let d := if old = 3 then endSession d (4 + n) else d
  let d := modUart d n (fun u => { Uart.zero with sending := u.sending })
  let d := oSet d (0x7E00 + n) 0x12 0
  if uMode d n = 3 then beginSession d (4 + n) else d

/-- f_clk (R632): XT48, or the slow oscillator in sleep. -/
def uartClk (d : Dev) : Nat := if d.power.phase = .asleep then 3686400 else 24576000

/-- BIT_DIV (R632): rounded to the nearest, ties to even. -/
def bitDiv (d : Dev) (n : Nat) : Nat :=
  let b := if uMode d n = 1 then 31250 else uf d n 0x02
  let x := uartClk d * 256
  let q := x / b
  if b < 2 * (x % b) ∨ (2 * (x % b) = b ∧ q % 2 = 1) then q + 1 else q

/-- BAUD_ACTUAL (R632). -/
def baudActual (d : Dev) (n : Nat) : Nat := uartClk d * 256000 / bitDiv d n

end Sys2Proof.Machine
end

