-- ==== Sys2Proof/Machine/Analog.lean ====
section
/-!
DEFINITION. Sys2Proof/Machine/Analog.lean: the output mixer and the converters (19 R570-R589): codes of AOUT and CV,
clips, pending registers, load strobes, the deglitcher, the clear, load faults.
-/
namespace Sys2Proof.Machine

/-! ### The mixer (R571-R574) -/

/-- Mixer-output index and sine-generator index of analog output o: 0-7 AOUT, 8-23 CV. -/
def mixIdx (o : Nat) : Nat := if o < 8 then 0x7500 + o else 0x7510 + (o - 8)
def sgIdx (o : Nat) : Nat := 0x7440 + o

/-- Output identifier of 03 R91. -/
def anaId (o : Nat) : Nat := if o < 8 then o else 0x10 + (o - 8)

/-- The sine generator of output o at SIX n (R572). -/
def sineGen (d : Dev) (o n : Nat) : Int :=
  let lev := sgn 32 (rs d (sgIdx o) 0x03)
  if lev = 0 then 0
  else rndConv (sineQ ((rs d (sgIdx o) 0x02 + n * rs d (sgIdx o) 0x01) % 2 ^ 32 * 2 ^ 16) * lev) 31

/-- One source of output o, before rounding. -/
def mixSrc (d : Dev) (o sub par i : Nat) : Int :=
  let src := rs d (mixIdx o) sub
  if src = 0xFF then 0 else busRead d src par i * sgn 32 (rs d (mixIdx o) (sub + 1))

/-- y of output o at sample i of the block, SIX n, and whether it saturated. -/
def mixY (d : Dev) (o par i n : Nat) : Int × Bool :=
  let v := rndConv (mixSrc d o 1 par i + mixSrc d o 3 par i) 28 + sineGen d o n + sgn 32 (rs d (mixIdx o) 0x05)
  (sat v 32, decide (sat v 32 ≠ v))

/-- The code of output o and whether it clipped (R571, R574). -/
def mixCode (d : Dev) (o par i n : Nat) : Int × Bool :=
  let y := mixY d o par i n
  if o < 8 then y
  else
    let c := rndConv (y.1 + (2 ^ 31 : Nat)) 14
    (min c (2 ^ 18 - 1 : Nat), y.2 || decide ((2 ^ 18 - 1 : Nat) < c))

/-- The block's codes of output o; a clipped sample counts in CLIPS and CLIP_TOTAL. -/
def mixBlock (k par : Nat) (d : Dev) (o : Nat) : Dev :=
  let b := blockLen d
  let cs := (rangeFrom 0 b).map (fun i => mixCode d o par i (k * b + i))
  let clips := (cs.filter (·.2)).length
  let d := bump (bump d (mixIdx o) 0x06 clips) 0x7580 0x01 clips
  { d with analog := { d.analog with codes := mput [] d.analog.codes (anaId o) (cs.map (·.1)) } }

/-- Output o is enabled in the active version (R573). -/
def anaOn (d : Dev) (o : Nat) : Bool :=
  if o < 8 then rs d (0x7400 + o) 0x01 = 1 else rs d 0x7420 0x01 = 1 && rs d (0x7410 + (o - 8)) 0x01 = 1

/-- OUTPUTS_ENABLED (R592). -/
def outputsEnabled (d : Dev) : Nat := ((rangeFrom 0 24).map (fun o => if anaOn d o then 2 ^ o else 0)).sum

/-! ### CV channels (R583-R589) -/

/-- CV channel n and its change. -/
def cvOf (d : Dev) (n : Nat) : CvCh := mget CvCh.zero d.analog.cv n
def modCv (d : Dev) (n : Nat) (f : CvCh → CvCh) : Dev :=
  { d with analog := { d.analog with cv := mmod CvCh.zero d.analog.cv n f } }

/-- A load of b over a is a major-code transition (R586): bits [17:13] differ. -/
def majorCode (a b : Nat) : Bool := a / 8192 % 32 != b / 8192 % 32

/-- A code is loaded with its range and reference: at once, through a hold, or captured during one. -/
def loadCv (c : CvSet) (x : CvCh) : CvCh :=
  match x.hold with
  | some _ => { x with next := some c }
  | none => if majorCode x.out.code c.code then { x with hold := some c } else { x with out := c }

/-- The hold ends (R586): its code is applied, and a code captured meanwhile follows. -/
def endHold (x : CvCh) : CvCh :=
  match x.hold with
  | none => x
  | some c => match x.next with
    | none => { x with out := c, hold := none }
    | some e => if majorCode c.code e.code then { x with out := c, hold := some e, next := none }
                else { x with out := e, hold := none, next := none }

/-- What was loaded last. -/
def cvNow (x : CvCh) : CvSet := x.next.getD (x.hold.getD x.out)

/-- CV_CODE_NOW: the DAC register. -/
def cvCode (x : CvCh) : Nat := (cvNow x).code

/-- CLEAR_ACTIVE (R587). -/
def clearActive (d : Dev) : Bool := d.analog.clrPin || oGet d 0x7420 0x05 == 1

/-- Channel n loads its CLEAR_CODE, in the range and on the reference in force. -/
def clearCv (d : Dev) (n : Nat) : Dev := modCv d n (fun x => loadCv { cvNow x with code := rs d (0x7410 + n) 0x03 } x)

/-- Every channel loads its CLEAR_CODE. -/
def clearAllCv (d : Dev) : Dev := (rangeFrom 0 16).foldl clearCv d

/-- Every channel loads its CLEAR_CODE, and the holds that this leaves have ended: the entry into sleep outlasts them. -/
def parkCv (d : Dev) : Dev := (rangeFrom 0 16).foldl (fun d n => modCv d n (fun x => endHold (endHold x))) (clearAllCv d)

/-- A strobe on one channel: its pending code, and CV_RANGE and VREF_SEL with it (R583, R589). -/
def strobeCh (d : Dev) (n : Nat) : Dev :=
  if anaOn d (8 + n) then
    bump (modCv d n (fun x => loadCv ⟨x.pending, rs d (0x7410 + n) 0x02, rs d 0x7420 0x04⟩ x)) (0x7410 + n) 0x05
  else d

/-- A load strobe (R583, R585). -/
def strobe (d : Dev) : Dev :=
  if mediaRuns d ∧ d.analog.arrived ∧ clearActive d = false then
    if (rangeFrom 0 16).any (fun n => anaOn d (8 + n)) then bump ((rangeFrom 0 16).foldl strobeCh d) 0x7420 0x07
    else d
  else d

/-- CV_STROBE_PIN: a filtered rising edge on LDCV. -/
def execCvStrobePin (s : State) : Out := onAwake (fun d => if rs d 0x7420 0x02 = 1 then strobe d else d) s

/-- DEGLITCH_HOLD_END of channel n. -/
def execDeglitchHoldEnd (n : Nat) (s : State) : Out :=
  onAwake (fun d => if n < 16 then modCv d n endHold else d) s

/-- CLRCV_ASSERT: every channel loads its CLEAR_CODE unless a clear was active already (R587). -/
def execClrcvAssert (s : State) : Out :=
  onDev (fun d =>
    let was := clearActive d
    let d := { d with analog := { d.analog with clrPin := true } }
    if was then d else clearAllCv d) s

/-- CLRCV_RELEASE. -/
def execClrcvRelease (s : State) : Out :=
  onDev (fun d => { d with analog := { d.analog with clrPin := false } }) s

/-- The effect of a write of CV_CLEAR. -/
def cvClear (d : Dev) (v : Nat) : Dev :=
  let was := clearActive d
  let d := oSet d 0x7420 0x05 v
  if clearActive d && !was then clearAllCv d else d

/-! ### Arrival at the converters (R575, R583) -/

/-- Channel o's interpolator and its change. -/
def dacOf (d : Dev) (o : Nat) : Dac := mget Dac.zero d.analog.dac o
def setDac (d : Dev) (o : Nat) (x : Dac) : Dev := { d with analog := { d.analog with dac := mput Dac.zero d.analog.dac o x } }

/-- Codes that an interpolator holds: as many as the longer filter reaches, 2·24 + 1. DESIGN CHOICE: log entry 64. -/
def dacTaps : Nat := 49

/-- Sample six reaches the interpolator of channel o (R575); one from before its start does not enter (R576, R581). -/
def dacIn (six : Nat) (d : Dev) (o : Nat) (c : Int) : Dev :=
  let x := dacOf d o
  if six < x.since then d else setDac d o { x with hist := (c :: x.hist).take dacTaps }

/-- Interpolator ratio of R575. -/
def dacRatio (d : Dev) : Nat := nth 8 [8, 4, 2] (rs d 0x2010 0x01 / 2)

/-- x of channel n at step j of the ratio (R577): zero while disabled, muted, or with zero codes at its input (R580, R581). -/
def dacX (d : Dev) (n j : Nat) : Int :=
  if anaOn d n = false ∨ oGet d (0x7400 + n) 0x04 = 2 ∨ (dacOf d n).hist.all (· == 0) then 0
  else clampI (-2 ^ 31) (2 ^ 31 - 1) (Config.interp (rs d (0x7400 + n) 0x02) (dacRatio d) j (dacOf d n).hist)

/-- I_P and I_N of channel n, in units of 4 mA·2^-31: the common mode of 8 mA and half of 8 mA·x each way (R577). -/
def dacLegs (d : Dev) (n j : Nat) : Int × Int := (2 ^ 32 + dacX d n j, 2 ^ 32 - dacX d n j)

/-- VREF in µV: the internal reference, or pin CVREF, of 1.0 V to 2.5 V (R582). -/
def vrefMicro (sel : Nat) : Nat := if sel = 0 then 2500000 else 1000000 + Config.cvref % 1500001

/-- V of CV channel n in units of 2^-18 µV (R582). -/
def cvVolts (d : Dev) (n : Nat) : Nat :=
  let x := (cvOf d n).out
  vrefMicro x.vref * (1 + x.range) * x.code

/-- Sample six arrives: AOUT codes, pending registers, and the strobe of LD_SRC 0 at a block's first sample. -/
def arrive (d : Dev) (x : Nat × List Int × List Int) : Dev :=
  let d := (rangeFrom 0 8).foldl (fun d o => dacIn x.1 d o (nth 0 x.2.1 o)) d
  let d := (rangeFrom 0 16).foldl (fun d n => modCv d n (fun c => { c with pending := (nth 0 x.2.2 n).toNat })) d
  let d := if 2 * blockLen d ≤ x.1 then { d with analog := { d.analog with arrived := true } } else d
  if x.1 % blockLen d = 0 ∧ rs d 0x7420 0x02 = 0 then strobe d else d

/-- Sample six leaves the mixer: it enters the interface, and the sample two earlier arrives. The code of an audio channel that
is disabled is replaced by zero (R581). -/
def egressAnalog (d : Dev) (six : Nat) : Dev :=
  let i := six % blockLen d
  let code (o : Nat) : Int := nth 0 (mget [] d.analog.codes (anaId o)) i
  let p := d.analog.pipe ++ [(six, (rangeFrom 0 8).map (fun o => if anaOn d o then code o else 0), (rangeFrom 8 16).map code)]
  match p with
  | x :: r =>
    if 2 < p.length then arrive { d with analog := { d.analog with pipe := r } } x
    else { d with analog := { d.analog with pipe := p } }
  | [] => d

/-- Boundary 0 of a media start: enabled channels load their CLEAR_CODE, nothing has arrived (R585). -/
def startAnalog (d : Dev) : Dev :=
  let d := { d with analog := { d.analog with codes := [], pipe := [], dac := [], arrived := false } }
  (rangeFrom 0 16).foldl (fun d n => if anaOn d (8 + n) then clearCv d n else d) d

/-- The media stops: the samples in transfer arrive, then zero codes reach AOUT; CV outputs hold (02 R46).
DEDUCED: log entry 64. -/
def stopAnalog (d : Dev) : Dev :=
  let d := d.analog.pipe.foldl arrive d
  { d with analog := { d.analog with codes := [], pipe := [], dac := [], arrived := false } }

/-! ### Load faults (R579, R580) -/

/-- DAC_STATE of an enabled channel at a boundary, or when a flag rises. -/
def dacState (d : Dev) (n : Nat) : Dev :=
  let flags := oGet d (0x7400 + n) 0x05 = 1 ∨ oGet d (0x7400 + n) 0x06 = 1
  if anaOn d n = false then oSet d (0x7400 + n) 0x04 0
  else oSet d (0x7400 + n) 0x04 (if rs d (0x7400 + n) 0x03 = 1 ∧ flags then 2 else 1)

/-- DAC_LOAD_FAULT: OPEN_LOAD, or COMPLIANCE, of channel n becomes 1. -/
def execDacLoadFault (n : Nat) (compliance : Bool) (s : State) : Out :=
  onAwake (fun d =>
    if n < 8 ∧ anaOn d n then
      if compliance then
        if oGet d (0x7400 + n) 0x05 = 0 ∧ oGet d (0x7400 + n) 0x06 = 0 then
          dacState (bump (oSet d (0x7400 + n) 0x06 1) (0x7400 + n) 0x07) n
        else d
      else if oGet d (0x7400 + n) 0x05 = 0 then
        dacState (bump (oSet (oSet d (0x7400 + n) 0x05 1) (0x7400 + n) 0x06 0) (0x7400 + n) 0x07) n
      else d
    else d) s

/-- DAC_LOAD_FAULT_CLEAR: the flag clears; the channel resumes at the next boundary. -/
def execDacLoadFaultClear (n : Nat) (compliance : Bool) (s : State) : Out :=
  onAwake (fun d => if n < 8 then oSet d (0x7400 + n) (if compliance then 0x06 else 0x05) 0 else d) s

/-! ### Switches (R576, R581, R588, R589) -/

/-- A CV channel at a switch: it loads its CLEAR_CODE when it is disabled or enabled by it, or when its CLEAR_CODE changed
while it is disabled or held; in these states its range and reference follow the switch (R589), at the output once a deglitch hold
that runs has ended (R586). -/
def switchCv (old : Version) (d : Dev) (n : Nat) : Dev :=
  let on (v : Version) : Bool := vGet v 0x7420 0x01 == 1 && vGet v (0x7410 + n) 0x01 == 1
  let now := on d.ver.active
  let off := (on old != now) || (vGet old 0x7420 0x01 == 1 && rs d 0x7420 0x01 == 0)
  let held := !now || clearActive d
  let d := if off || (held && vGet old (0x7410 + n) 0x03 != rs d (0x7410 + n) 0x03) then clearCv d n else d
  let turn (x : CvSet) : CvSet := { x with range := rs d (0x7410 + n) 0x02, vref := rs d 0x7420 0x04 }
  if held then modCv d n (fun x => match x.hold with
    | some c => { x with hold := some (turn c), next := x.next.map turn }
    | none => { x with out := turn x.out })
  else d

/-- An interpolator at a switch effective at boundary b: a change of INTERP, or an enable, starts it at b with empty history
(R576, R581). -/
def switchDac (old : Version) (b : Nat) (d : Dev) (n : Nat) : Dev :=
  if (anaOn d n && vGet old (0x7400 + n) 0x01 == 0) || vGet old (0x7400 + n) 0x02 != rs d (0x7400 + n) 0x02 then
    setDac d n ⟨[], b * blockLen d⟩
  else d

/-- DAC_STATE of a channel whose DAC_ENABLE or FAULT_MUTE a switch changes; any other resumes at a boundary only (R580). -/
def switchDacState (old : Version) (d : Dev) (n : Nat) : Dev :=
  let ix := 0x7400 + n
  if [0x01, 0x03].any (fun k => vGet old ix k != rs d ix k) then
    dacState (if anaOn d n then d else oSet (oSet d ix 0x05 0) ix 0x06 0) n
  else d

/-- The converters at a switch effective at boundary b. -/
def switchAnalog (d : Dev) (old : Version) (b : Nat) : Dev :=
  let d := (rangeFrom 0 8).foldl (switchDac old b) d
  let d := (rangeFrom 0 16).foldl (switchCv old) d
  (rangeFrom 0 8).foldl (switchDacState old) d

/-- GROUP_DELAY of channel n (R575). -/
def groupDelay (d : Dev) (n : Nat) : Nat := if rs d (0x7400 + n) 0x02 = 0 then 7 else 24

end Sys2Proof.Machine
end

