-- ==== Sys2Proof/Machine/Cost.lean ====
section
/-!
DEFINITION. Sys2Proof/Machine/Cost.lean: what a COMMIT checks and computes of a changed voice program record: the
record's rules (06 R184, R202; 07 R227; 08 R253; 09 R257) and its compiled cost (06 R199, 07 R222, 08 R248, 09 R260).
-/
namespace Sys2Proof.Machine

/-! ### Rules of a record -/

/-- Families of the edit window. -/
def editFams : List Fam :=
  [fam4810, fam4820R, fam4820, fam4822, fam4823, fam4830, fam4840, fam4850, fam4860, fam4870]

/-- The value of field m of row o in instance n of a family holds its Range column. -/
def fieldOk (b : AMap Byte) (f : Fam) (o : ObjDef) (n m : Nat) : Bool :=
  let v := rU b (f.recBase + f.recStride * n + o.recOff + o.recStep * m) o.ty.size
  b1Ok o.ty v && rngOk o.ty o.rng n 0 v

/-- Every scalar field of the record is inside its Range column (R257). -/
def fieldsOk (b : AMap Byte) : Bool :=
  editFams.all (fun f => f.objs.all (fun o =>
    o.acc != .rs || o.ty.size == 0 ||
    (rangeFrom 0 f.count).all (fun n => (rangeFrom 0 o.count).all (fun m => fieldOk b f o n m))))

/-- Offset o belongs to a field, to NAME, to FORMAT or to COST (R254, R255). -/
def inField (o : Nat) : Bool :=
  if o < 0x20 then o = 0 || (2 ≤ o && o < 8) || 16 ≤ o
  else if o < 0x490 then (o - 0x20) % 0x11C < 58 || 60 ≤ (o - 0x20) % 0x11C
  else if o < 0x4A8 then o - 0x490 < 23
  else if o < 0x4C0 then o - 0x4A8 < 22
  else if o < 0x4CC then o - 0x4C0 < 10
  else if o < 0x4D8 then o - 0x4CC < 9
  else if o < 0x6A0 then (o - 0x4D8) % 0x4C < 75
  else if o < 0x6F0 then (o - 0x6A0) % 0x14 < 19
  else o < 0x7E8

/-- One byte of a UTF-8 text: continuation bytes due and the range of the next one. -/
def utf8Step (st : Option (Nat × Nat × Nat)) (b : Nat) : Option (Nat × Nat × Nat) := match st with
  | none => none
  | some (0, _, _) =>
      if b < 0x80 then some (0, 0, 0)
      else if b < 0xC2 then none
      else if b < 0xE0 then some (1, 0x80, 0xBF)
      else if b = 0xE0 then some (2, 0xA0, 0xBF)
      else if b = 0xED then some (2, 0x80, 0x9F)
      else if b < 0xF0 then some (2, 0x80, 0xBF)
      else if b = 0xF0 then some (3, 0x90, 0xBF)
      else if b < 0xF4 then some (3, 0x80, 0xBF)
      else if b = 0xF4 then some (3, 0x80, 0x8F)
      else none
  | some (k + 1, lo, hi) => if lo ≤ b ∧ b ≤ hi then some (k, 0x80, 0xBF) else none

/-- Well-formed UTF-8. -/
def utf8Ok (l : List Nat) : Bool := match l.foldl utf8Step (some (0, 0, 0)) with
  | some (0, _, _) => true
  | _ => false

/-- The bytes of NAME. -/
def nameBytes (b : AMap Byte) : List Nat := (rangeFrom 16 16).map (rB b)

/-- NAME is well formed and holds nothing after its first 0x00. -/
def nameOk (b : AMap Byte) : Bool :=
  let l := nameBytes b
  let t := l.takeWhile (fun x => x != 0)
  utf8Ok t && (l.drop t.length).all (fun x => x == 0)

/-- WAVE is listed for MODE (06 R178). -/
def waveOk (mode wave : Nat) : Bool := wave ≤ nth 0 [0, 3, 0, 0, 0, 1] mode

/-- A zone of oscillator x is in order (06 R202). -/
def zoneOk (b : AMap Byte) (x z : Nat) : Bool :=
  let a := zoneAt x z
  rB b a ≤ rB b (a + 1) && rB b (a + 2) ≤ rB b (a + 3)

/-- Oscillator x (06 R184, R202): PM amounts of oscillators not before it are 0. -/
def oscOk (b : AMap Byte) (x : Nat) : Bool :=
  let a := oscAt x
  waveOk (rB b a) (rB b (a + 1)) &&
  (rangeFrom 0 3).all (fun j => decide (j < x) || rU b (a + 22 + 4 * j) 4 == 0) &&
  (rangeFrom 0 16).all (zoneOk b x)

/-- SUBTYPE of filter i is listed for its TYPE (07 R223, R227). -/
def filterOk (b : AMap Byte) (i : Nat) : Bool :=
  rB b (fltAt i + 1) ≤ nth 0 [4, 4, 1, 1] (rB b (fltAt i))

/-- SEND_DEST of send s fits its SEND_MODE (07 R227). -/
def sendOk (b : AMap Byte) (s : Nat) : Bool :=
  let m := rB b (sendAt s)
  let t := rB b (sendAt s + 1)
  (m != 1 || t < 64 || t == 255) && (m != 2 || t < 128)

/-- The rules of 08 R253 on envelope e (0 is ENV1). -/
def envOk (b : AMap Byte) (e : Nat) : Bool :=
  let n := envNseg b e
  let sus := envSus b e
  let lp := envLoop b e
  let last := if sus = 255 then n - 1 else sus
  (sus == 255 || sus + 2 ≤ n) && (lp == 255 || lp < n) && (sus == 255 || lp == 255 || lp ≤ sus) &&
  (lp == 255 || (rangeFrom lp (last + 1 - lp)).any (fun j => segTime b e j != 0)) &&
  (e != 0 || (segLevel b 0 (n - 1) == 0 && !(sus == 255 && lp != 255)))

/-- Destinations that would modulate an amount R184 keeps at 0. -/
def destForbidden (c : Nat) : Bool := [0x13, 0x14, 0x15, 0x24, 0x25, 0x35].contains c

/-- A record that a COMMIT accepts. -/
def recordOk (b : AMap Byte) : Bool :=
  rB b 0 == 1 && b.all (fun c => inField c.1) && fieldsOk b && nameOk b && (rangeFrom 0 4).all (oscOk b) &&
  (rangeFrom 0 2).all (filterOk b) && (rangeFrom 0 4).all (sendOk b) && (rangeFrom 0 6).all (envOk b) &&
  (rangeFrom 0 32).all (fun j => !destForbidden (slotOf b j).dest)

/-! ### Cost -/

/-- MODE of oscillator x. -/
def oscMode (b : AMap Byte) (x : Nat) : Nat := rB b (oscAt x)

/-- Regions that a sample oscillator's zones in use name. -/
def zoneRegions (b : AMap Byte) (x : Nat) : List Nat :=
  (rangeFrom 0 (min 16 (rB b (oscAt x + 52)))).map (fun z => rU b (zoneAt x z + 4) 2)

/-- Channels that a sample oscillator is charged for: the most among its zones' regions in version v.
DEDUCED: log entry 41. -/
def sampleChannels (v : Version) (b : AMap Byte) (x : Nat) : Nat :=
  if (zoneRegions b x).any (fun r => vGet v 0x6801 0x04 r % 2 = 1) then 2 else 1

/-- CU of oscillator x (06 R199). DEDUCED: log entry 41. -/
def oscCost (v : Version) (b : AMap Byte) (x : Nat) : Nat :=
  let a := oscAt x
  match oscMode b x with
  | 1 => nth 0 [16, 22, 20, 12] (rB b (a + 1))
  | 2 => 18 + 3 * ((rangeFrom 0 3).filter (fun j => rU b (a + 22 + 4 * j) 4 != 0)).length +
      (if rU b (a + 34) 4 = 0 then 0 else 4)
  | 3 => 40
  | 4 => (if rB b (a + 43) = 0 then 24 else 36) * sampleChannels v b x *
      (if rU b (a + 46) 2 ≠ 0 ∧ rB b (a + 44) % 2 = 1 then 2 else 1)
  | 5 => if rB b (a + 1) = 0 then 6 else 10
  | _ => 0

/-- Oscillators with MODE ≠ 0. -/
def liveOscs (b : AMap Byte) : List Nat := (rangeFrom 0 4).filter (fun x => oscMode b x != 0)

/-- CU of the oscillator section. -/
def oscSection (v : Version) (b : AMap Byte) : Nat :=
  ((rangeFrom 0 4).map (oscCost v b)).sum + 4 + 2 * (liveOscs b).length

/-- CU of the filter section (07 R222): nothing when both TYPE are 0. -/
def filterSection (b : AMap Byte) : Nat :=
  let routed (m : Nat) : Bool := (liveOscs b).any (fun x => rB b (oscAt x + 57) = m || rB b (oscAt x + 57) = 2)
  if rB b (fltAt 0) = 0 ∧ rB b (fltAt 1) = 0 then 0
  else (if routed 0 then 2 else 0) + (if routed 1 then 2 else 0) + (if rB b 0x4A6 = 2 then 12 else 6) +
    nth 0 [1, 14, 26, 12] (rB b (fltAt 0)) + nth 0 [1, 14, 26, 12] (rB b (fltAt 1))

/-- CU from the filters to the sends (07 R222). -/
def outputSection (b : AMap Byte) : Nat :=
  let ch := if rB b 0x4A6 = 2 then 2 else 1
  filterSection b + ch * nth 0 [0, 6, 2, 4, 6, 7, 5] (rB b 0x4C0) + 4 * ch +
  (if rB b 0x4D4 = 0 ∧ ch = 1 then 2 else 1) + ((rangeFrom 0 4).map (fun s => nth 0 [0, 3, 2] (rB b (sendAt s)))).sum

/-- CU of the modulation section (08 R248). -/
def modSection (b : AMap Byte) : Nat :=
  let sl := activeSlots b
  let used (c : Nat) : Bool := sl.any (fun s => s.src = c || s.via = c)
  let lfo (l : Nat) : Nat := if used (8 + l) then
      (if rU b (lfoAt l + 11) 4 = 0 ∧ rU b (lfoAt l + 15) 4 = 0 then 6 else 8) else 0
  14 + 10 * ((rangeFrom 3 5).filter used).length + ((rangeFrom 0 4).map lfo).sum +
  3 * ((rangeFrom 12 8).filter used).length +
  (sl.map (fun s => if audioDest s.dest then (if s.via = 0 then 8 else 10) else 2)).sum

/-- Compiled cost of a record under the region formats of version v (09 R260). -/
def recordCost (v : Version) (b : AMap Byte) : Nat := oscSection v b + outputSection b + modSection b

/-- Write COST into program p's record. -/
def putCost (v : Version) (p : Nat) : Version :=
  let c := recordCost v (recDiff v p)
  recPuts v p 2 (toLE 2 c)

end Sys2Proof.Machine
end

