-- ==== Sys2Proof/Machine/Timers.lean ====
section
/-!
DEFINITION. Sys2Proof/Machine/Timers.lean: the timer/counters (21 R620-R629): ticks, matches, outputs, captures.
-/
namespace Sys2Proof.Machine

/-- An RS field, an object and a counter of timer n. -/
def tcf (d : Dev) (n sub : Nat) : Nat := rs d (0x7C00 + n) sub
def tcGet (d : Dev) (n sub : Nat) : Nat := oGet d (0x7C00 + n) sub
def tcSet (d : Dev) (n sub v : Nat) : Dev := oSet d (0x7C00 + n) sub v

/-- Timer n's record and its change. -/
def timerOf (d : Dev) (n : Nat) : Timer := mget Timer.zero d.timers n
def modTimer (d : Dev) (n : Nat) (f : Timer → Timer) : Dev := { d with timers := mmod Timer.zero d.timers n f }

/-- Timer n is enabled; it is stopped under R626 when its stored TC_STATE reads 2. -/
def tcOn (d : Dev) (n : Nat) : Bool := tcf d n 0x01 = 1
def tcStopped (d : Dev) (n : Nat) : Bool := tcGet d n 0x15 = 2

/-- Timer n counts: it is enabled, not stopped, and its source has edges; that of a cascaded unit, when its neighbour counts. -/
def tcCounts (d : Dev) : Nat → Bool
  | 0 => tcOn d 0 && !tcStopped d 0 && tcf d 0 0x02 != 0 && tcf d 0 0x02 != 13 && (tcf d 0 0x02 != 3 || mediaRuns d)
  | n + 1 =>
    let src := tcf d (n + 1) 0x02
    tcOn d (n + 1) && !tcStopped d (n + 1) && src != 0 && (src != 3 || mediaRuns d) && (src != 13 || tcCounts d n)

/-- TC_STATE (R629): 2 also where the source has no edges. -/
def tcState (d : Dev) (n : Nat) : Nat := if tcOn d n = false then 0 else if tcCounts d n then 1 else 2

/-- Level of pin TOUTp set to v. -/
def setTout (d : Dev) (p : Nat) (v : Bool) : Dev :=
  let l := oGet d 0x7C40 0x0B
  oSet d 0x7C40 0x0B (if v then l ||| 2 ^ p else l - (if bitOf l p then 2 ^ p else 0))

/-- OUT_ACTION on a match (R623 step 4). -/
def outAction (d : Dev) (n : Nat) : Dev :=
  let p := tcf d n 0x08
  if 7 < p then d
  else if tcf d n 0x09 = 1 then setTout d p (!bitOf (oGet d 0x7C40 0x0B) p)
  else if tcf d n 0x09 = 2 then modTimer (setTout d p true) n (fun t => { t with pulse := true })
  else d

/-- A match of timer n (R623 steps 2 to 5). -/
def tcMatch (d : Dev) (n : Nat) : Dev :=
  if tcf d n 0x07 = 1 ∧ tcGet d n 0x04 = tcGet d n 0x05 then
    let d := bump d (0x7C00 + n) 0x11
    let iv := tcf d n 0x06
    let d := if iv = 0 then d else tcSet d n 0x05 ((tcGet d n 0x05 + iv) % 2 ^ 32)
    let d := outAction d n
    if rs d 0x7420 0x02 = 2 ∧ rs d 0x7420 0x03 = n then strobe d else d
  else d

/-- Step 1 of a tick: CNT, a pulse that ends, an overflow; true on an overflow. -/
def tcCount (d : Dev) (n : Nat) : Bool × Dev :=
  let d := if (timerOf d n).pulse then modTimer (setTout d (tcf d n 0x08) false) n (fun t => { t with pulse := false }) else d
  let c := (tcGet d n 0x04 + 1) % 2 ^ 32
  let d := tcSet d n 0x04 c
  if c = 0 then (true, bump d (0x7C00 + n) 0x13) else (false, d)

/-- One source edge through the prescaler (R621): true on a tick. -/
def prescale (d : Dev) (n : Nat) : Bool × Dev :=
  let a := (timerOf d n).acc + 65536
  let p := tcf d n 0x03
  if p ≤ a then (true, modTimer d n (fun t => { t with acc := a - p })) else (false, modTimer d n (fun t => { t with acc := a }))

/-- A tick of timer n; its overflow is a source edge of a cascaded neighbour (R626). `mid` acts between steps 1 and 2.
DEDUCED: log entry 48. -/
def tcTick : Nat → (Dev → Dev) → Dev → Nat → Dev
  | 0, _, d, _ => d
  | k + 1, mid, d, n =>
    let c := tcCount d n
    let d := tcMatch (mid c.2) n
    let m := n + 1
    if c.1 ∧ m < 16 ∧ tcOn d m ∧ tcf d m 0x02 = 13 ∧ tcStopped d m = false then
      let e := prescale d m
      if e.1 then tcTick k id e.2 m else e.2
    else d

/-- TIMER_TICK: a tick of a timer whose source is a clock (CLK_SRC 1-4). DEDUCED: log entry 48. -/
def execTimerTick (n : Nat) (s : State) : Out :=
  onAwake (fun d =>
    let src := tcf d n 0x02
    if n < 16 ∧ tcOn d n ∧ 1 ≤ src ∧ src ≤ 4 ∧ (src ≠ 3 ∨ mediaRuns d) then tcTick 16 id d n else d) s

/-! ### Captures (R627, R628) -/

/-- A capture item (R628). -/
def capItem (d : Dev) (n frac : Nat) : BitVec 128 :=
  BitVec.ofNat 128 (fromLE (toLE 5 (sixNow d) ++ toLE 1 n ++ toLE 2 frac ++ toLE 4 (tcGet d n 0x0D) ++ toLE 4 (tcGet d n 0x0E)))

/-- A capture of timer n at a fraction of the media position. -/
def capture (frac n : Nat) (d : Dev) : Dev :=
  let c := tcGet d n 0x04
  let d := tcSet d n 0x0E ((c + 2 ^ 32 - tcGet d n 0x0D) % 2 ^ 32)
  let d := bump (tcSet (tcSet d n 0x0D c) n 0x0F (sixNow d)) (0x7C00 + n) 0x12
  let q := tcf d n 0x10
  if q = 0xFFFF ∨ mediaRuns d = false then d
  else match qPutIf d q (capItem d n frac) with
    | some d => d
    | none => bump d (0x7C00 + n) 0x14

/-- The edge is of the kind that CAP_EDGE names. -/
def capEdge (d : Dev) (n : Nat) (rising : Bool) : Bool :=
  let e := tcf d n 0x0B
  e = 2 || (e = 0 && rising) || (e = 1 && !rising)

/-- An edge at a capture pin: true when it captures. -/
def capCounts (d : Dev) (p n : Nat) (rising : Bool) : Bool × Dev :=
  if tcOn d n ∧ tcf d n 0x02 ≠ 0 ∧ tcf d n 0x0A = p ∧ capEdge d n rising then
    let k := (timerOf d n).edges + 1
    if tcf d n 0x0C ≤ k then (true, modTimer d n (fun t => { t with edges := 0 }))
    else (false, modTimer d n (fun t => { t with edges := k }))
  else (false, d)

/-- A filtered edge of TINp at one timer: it may clock it and it may capture; a capture at a tick takes CNT after step 1. -/
def tinTimer (p : Nat) (rising : Bool) (frac : Nat) (d : Dev) (n : Nat) : Dev :=
  let c := capCounts d p n rising
  let cap (d : Dev) : Dev := if c.1 then capture frac n d else d
  if rising ∧ tcOn c.2 n ∧ tcf c.2 n 0x02 = 5 + p then
    let e := prescale c.2 n
    if e.1 then tcTick 16 cap e.2 n else cap e.2
  else cap c.2

/-- TIN_EDGE: a filtered edge of pin TINp. DEDUCED: log entries 48, 51. -/
def execTinEdge (p : Nat) (rising : Bool) (frac : Nat) (s : State) : Out :=
  onDev (fun d =>
    if p < 8 then
      let l := oGet d 0x7C40 0x0A
      let d := oSet d 0x7C40 0x0A (if rising then l ||| 2 ^ p else l - (if bitOf l p then 2 ^ p else 0))
      if d.power.phase = .awake then (rangeFrom 0 16).foldl (tinTimer p rising (frac % 65536)) d else d
    else d) s

/-! ### Writes and switches (R624, R626, R629) -/

/-- The effect of a write of CNT. -/
def tcWriteCnt (d : Dev) (n v : Nat) : Dev := modTimer (tcSet d n 0x04 v) n (fun t => { t with acc := 0 })

/-- Boundary 0: a cascaded unit stops, and counts in CASCADE_STOPS at each start (R626). -/
def cascadeStop (d : Dev) (n : Nat) : Dev :=
  if tcOn d n ∧ tcf d n 0x02 = 13 then bump (tcSet d n 0x15 2) 0x7C40 0x0C else d

/-- Timer n at a switch (R627, R629). -/
def switchTimer (old : Version) (d : Dev) (n : Nat) : Dev :=
  let was (sub : Nat) : Nat := vGet old (0x7C00 + n) sub
  let changed (sub : Nat) : Bool := was sub != tcf d n sub
  let d := if was 1 = 1 ∧ tcOn d n = false ∧ was 8 < 8 then setTout d (was 8) false else d
  let d := if tcOn d n ∧ (was 1 = 0 ∨ changed 2 ∨ changed 3) then modTimer (tcSet d n 0x15 0) n (fun t => { t with acc := 0 }) else d
  let d := if (tcOn d n ∧ was 1 = 0) ∨ changed 0x0C ∨ d.ver.active.caps.contains n then modTimer d n (fun t => { t with edges := 0 }) else d
  if tcOn d n then d else modTimer (tcSet d n 0x15 0) n (fun t => { t with pulse := false })

/-- Pins that no enabled unit names drive low (R624). -/
def quietPins (d : Dev) : Dev :=
  (rangeFrom 0 8).foldl (fun d p =>
    if (rangeFrom 0 16).any (fun n => tcOn d n && tcf d n 0x08 == p) then d else setTout d p false) d

/-- Every timer at a switch. -/
def switchTimers (d : Dev) (old : Version) : Dev := quietPins ((rangeFrom 0 16).foldl (switchTimer old) d)

end Sys2Proof.Machine
end

