-- ==== Sys2Proof/Machine/Sense.lean ====
section
/-!
DEFINITION. Sys2Proof/Machine/Sense.lean: the sense chain (20 R597-R613): scans, the DC block, decimation, strike
machines, ring items, detectors, the main path and the fall-back.
-/
namespace Sys2Proof.Machine

/-- MUXED bit of input n. -/
def muxed (d : Dev) (n : Nat) : Bool := bitOf (rs d 0x7800 0x0C) n

/-- Sensor record s and its change. -/
def sensorOf (d : Dev) (s : Nat) : Sensor := mget Sensor.zero d.sense.sensors s
def modSensor (d : Dev) (s : Nat) (f : Sensor → Sensor) : Dev :=
  { d with sense := { d.sense with sensors := mmod Sensor.zero d.sense.sensors s f } }

/-- The device is asleep. -/
def asleep (d : Dev) : Bool := d.power.phase = .asleep

/-- PATH_STATE (R610). -/
def pathState (d : Dev) : Nat :=
  if rs d 0x7800 0x01 = 0 then 0 else if asleep d || d.sense.derated then 2 else 1

/-- The sensor of input n's coarse value (R600), 150 ns after its sampling instant (R598). The address of the next scan comes 125 ns
after that of SN31, so SN31 was sampled at the address before it (R599). DEDUCED: log entry 47. -/
def sensorNow (d : Dev) (n : Nat) : Nat := if muxed d n then 8 * n + (if n = 31 then d.sense.smxWas else d.sense.smx) else 8 * n

/-- The sensor of the conversion of input n that completes: the one of its coarse value, which is ready first (R598), so that
the change of the address for the next scan does not reach it (R599). DEDUCED: log entry 47. -/
def sensorDone (d : Dev) (n : Nat) : Nat := (mget none d.sense.sampled n).getD (sensorNow d n)

/-- The pins are low while no input is muxed, or the engine is off (R599). -/
def quietSmx (d : Dev) : Dev :=
  if pathState d = 0 ∨ rs d 0x7800 0x0C = 0 then { d with sense := { d.sense with smx := 0 } } else d

/-- SENSE_SCAN: the scan's address (R599, R610). -/
def execSenseScan (s : State) : Out :=
  onDev (fun d =>
    let p := pathState d
    if p = 0 then { d with sense := { d.sense with smx := 0, smxWas := d.sense.smx } }
    else
      let a := if rs d 0x7800 0x0C = 0 then 0 else if p = 1 then d.sense.scan % 8 else rs d 0x7800 0x06
      { d with sense := { d.sense with scan := d.sense.scan + 1, smx := a, smxWas := d.sense.smx } }) s

/-! ### Ring items (R605, R606) -/

/-- An item of kind k for sensor s with a value, at media position pos. -/
def senseItem (k s value pos : Nat) : BitVec 128 :=
  BitVec.ofNat 128 (fromLE (toLE 5 (pos / 65536) ++ toLE 1 k ++ toLE 2 s ++ toLE 4 value ++ toLE 2 (pos % 65536)))

/-- A strike or release item enters its ring, waits in the FIFO, or is dropped. -/
def strikeItem (d : Dev) (v : BitVec 128) : Dev :=
  let q := rs d 0x7800 0x04
  if mediaRuns d = false ∨ q = 0xFFFF then d
  else if d.sense.strike = [] ∧ 0 < qRoom d q then qPush d q v
  else if d.sense.strike.length < 64 then { d with sense := { d.sense with strike := d.sense.strike ++ [v] } }
  else bump d 0x7800 0x0A

/-- STRIKE_ITEM_ENTRY: the oldest waiting item enters while STRIKE_RING names a ring; while the media does not run the items
are discarded (R605). -/
def execStrikeItemEntry (s : State) : Out :=
  onDev (fun d =>
    match d.sense.strike with
    | [] => d
    | v :: r =>
      if mediaRuns d = false then { d with sense := { d.sense with strike := [] } }
      else if rs d 0x7800 0x04 = 0xFFFF then d
      else match qPutIf d (rs d 0x7800 0x04) v with
      | some d => { d with sense := { d.sense with strike := r } }
      | none => d) s

/-! ### Strike machines (R604) -/

/-- A field of sensor s in the active version. -/
def sf (d : Dev) (s sub : Nat) : Nat := rs d (0x7900 + s) sub

/-- What a strike machine does: next state, whether it marks the instant, kind of the item it makes. -/
def strikeStep (st : Nat) (c th1 th2 h : Int) : Nat × Bool × Option Nat :=
  match st with
  | 0 => if th1 ≤ c then (1, true, none) else (0, false, none)
  | 1 => if th2 ≤ c then (2, false, some 1) else if c < th1 - h then (0, false, none) else (1, false, none)
  | 2 => if c < th2 - h then (3, true, none) else (2, false, none)
  | _ => if th2 ≤ c then (2, false, none) else if c < th1 - h then (0, false, some 2) else (3, false, none)

/-- The key after a conversion: one that is down at the first since the path's start is held until it has returned to REST (R612).
DEDUCED: log entry 47. -/
def keyNext (k : KeyAt) (c th1 th2 h : Int) : KeyAt :=
  match k with
  | .fresh => if th2 ≤ c then .held else .free
  | .held => if c < th1 - h then .free else .held
  | .free => .free

/-- The value that STRIKE_DIR gives a coarse value. -/
def strikeVal (d : Dev) (s c : Nat) : Nat := if sf d s 0x07 = 0 then c else 1023 - c

/-- Where the key of sensor s stands since the start of the path, whether or not its strike machine runs (R612). -/
def keyRun (d : Dev) (s c : Nat) : Dev :=
  modSensor d s (fun x => { x with key := keyNext x.key (strikeVal d s c) (sf d s 0x08) (sf d s 0x09) (sf d s 0x0A) })

/-- One conversion of sensor s by its strike machine. -/
def strikeRun (d : Dev) (s c pos : Nat) : Dev :=
  let c' := strikeVal d s c
  let d := keyRun d s c
  if (sensorOf d s).key = .held then d
  else
  let t := min 65535 ((sensorOf d s).t + 1)
  let r := strikeStep (oGet d (0x7900 + s) 0x0B) c' (sf d s 0x08) (sf d s 0x09) (sf d s 0x0A)
  let d := modSensor (oSet d (0x7900 + s) 0x0B r.1) s (fun x => { x with t := if r.2.1 then 0 else t })
  match r.2.2 with
  | none => d
  | some k =>
    let d := if k = 1 then bump d (0x7900 + s) 0x0D else d
    strikeItem d (senseItem k s (t + 65536 * c') pos)

/-- SENSE_COARSE_READY: bits [15:6] of a conversion of input n, sampled at media position pos. -/
def execSenseCoarseReady (n c pos : Nat) (s : State) : Out :=
  onDev (fun d =>
    if n < 32 ∧ pathState d ≠ 0 ∧ rs d (0x7810 + n) 0x01 = 1 then
      let k := sensorNow d n
      let c := c % 1024
      let d := oSet { d with sense := { d.sense with sampled := mput none d.sense.sampled n (some k) } } (0x7900 + k) 0x0C c
      if pathState d ≠ 1 then d else if sf d k 0x06 = 1 then strikeRun d k c pos else keyRun d k c
    else d) s

/-! ### DC block, decimation, detector (R601, R602, R608, R609) -/

/-- The DC block on sensor s: its value y. -/
def dcBlock (d : Dev) (s x : Nat) : Int × Dev :=
  let v : Int := ((x : Int) - 32768) * 65536
  if sf d s 0x01 = 0 then (v, d)
  else
    let m := (sensorOf d s).m
    let m := if sf d s 0x01 = 1 ∧ oGet d (0x7900 + s) 0x03 = 0 then m + rndConv (v * 65536 - m) (sf d s 0x02) else m
    (sat (v - rndConv m 16) 32, modSensor d s (fun y => { y with m := m }))

/-- Conversions of sensor s in one sum. -/
def sumLen (d : Dev) (s : Nat) : Nat := if muxed d (s / 8) then rs d 0x7800 0x02 / 8 else rs d 0x7800 0x02

/-- The quotient of R602. -/
def fineOf (sum : Int) (n : Nat) : Int :=
  let q := sum / n
  let r := sum - q * n
  if (n : Int) < 2 * r ∨ (2 * r = (n : Int) ∧ q % 2 = 1) then q + 1 else q

/-- A control value f of sensor s. -/
def fineValue (d : Dev) (s pos : Nat) (f : Int) : Dev :=
  let d := oSetI d (0x7900 + s) 0x05 32 f
  let q := rs d 0x7800 0x03
  if sf d s 0x04 = 0 ∨ q = 0xFFFF ∨ mediaRuns d = false then d
  else match qPutIf d q (senseItem 0 s (wrapU 32 f) pos) with
    | some d => d
    | none => bump d 0x7800 0x09

/-- The main path of one conversion. DEDUCED: log entry 47. -/
def mainPath (d : Dev) (s x pos : Nat) : Dev :=
  let y := dcBlock d s x
  let sum := (sensorOf y.2 s).sum + y.1
  let c := (sensorOf y.2 s).cnt + 1
  if sumLen d s ≤ c then
    fineValue (modSensor y.2 s (fun z => { z with sum := 0, cnt := 0 })) s pos (fineOf sum c)
  else modSensor y.2 s (fun z => { z with sum := sum, cnt := c })

/-- ENV_ST of input n. -/
def envSt (d : Dev) (n : Nat) : Int := mget 0 d.sense.env n

/-- The detector on one conversion: true on an upward crossing of WAKE_TH. -/
def detector (d : Dev) (n x : Nat) : Bool × Dev :=
  let df (sub : Nat) : Nat := rs d (0x7840 + n) sub
  let a := min ((x : Int) - (df 1 : Nat)).natAbs 32767
  let d := oSet d (0x7840 + n) 0x06 (max (oGet d (0x7840 + n) 0x06) a)
  let ms : Int := oGet d (0x7840 + n) 0x07
  let d := oSetI d (0x7840 + n) 0x07 32 (ms + rndConv ((a * a : Nat) - ms) (df 3))
  let e := envSt d n
  let big : Int := a * 65536
  let e' := e + rndConv (big - e) (if e < big then df 4 else df 5)
  let d := { d with sense := { d.sense with env := mput 0 d.sense.env n e' } }
  if e / 65536 < (df 0x0A : Nat) ∧ ((df 0x0A : Nat) : Int) ≤ e' / 65536 then (true, bump d (0x7840 + n) 0x0C) else (false, d)

/-- A conversion of input n is complete: true where the detector's crossing is a wake request (R609). -/
def convert (d : Dev) (n x pos : Nat) : Bool × Dev :=
  if n < 32 ∧ pathState d ≠ 0 ∧ rs d (0x7810 + n) 0x01 = 1 then
    let x := x % 65536
    let d := oSet d (0x7810 + n) 0x02 x
    let d := if x = 0 ∨ x = 65535 then bump d (0x7810 + n) 0x03 else d
    let k := sensorDone d n
    let d := oSet d (0x7900 + k) 0x0C (x / 64)
    let d := if pathState d = 1 then mainPath d k x pos else d
    if muxed d n ∧ k % 8 ≠ rs d (0x7840 + n) 0x02 then (false, d)
    else
      let r := detector d n x
      (r.1 && rs d (0x7840 + n) 0x0B == 1 && asleep d, r.2)
  else (false, d)

/-! ### Main path and fall-back (R610-R613) -/

/-- Partial sums and strike machines of every sensor return to their start. -/
def mainClear (d : Dev) : Dev :=
  (d.sense.sensors.map (·.1)).foldl (fun d s => modSensor d s (fun x => { x with sum := 0, cnt := 0, t := 0, key := .fresh }))
    ((rangeFrom 0 256).foldl (fun d s => oSet d (0x7900 + s) 0x0B 0) d)

/-- The main path stops (R612). DEDUCED: log entry 47. -/
def mainStop (d : Dev) : Dev := bump (mainClear d) 0x7800 0x0B

/-- The main path starts: the estimates m are 0 (R601). DEDUCED: log entry 47. -/
def mainStart (d : Dev) : Dev :=
  (d.sense.sensors.map (·.1)).foldl (fun d s => modSensor d s (fun x => { x with m := 0 })) (mainClear d)

/-- The path state was `old` before a change. -/
def pathChange (old : Nat) (d : Dev) : Dev :=
  let new := pathState d
  if old = 1 ∧ new ≠ 1 then mainStop d else if old ≠ 1 ∧ new = 1 then mainStart d else d

/-- R611 at a boundary: `hot` is THERMAL_STATE. -/
def senseBoundary (d : Dev) (hot : Nat) : Dev :=
  let old := pathState d
  pathChange old { d with sense := { d.sense with derated := rs d 0x7800 0x07 == 1 && decide (2 ≤ hot) } }

/-- The sense chain at a switch (R612, R613). A conversion under way keeps its sensor unless its input changes its MUXED bit or
the engine is off. -/
def switchSense (d : Dev) (old : Version) : Dev :=
  let was := if vGet old 0x7800 0x01 = 0 then 0 else if asleep d || d.sense.derated then 2 else 1
  let keep (n : Nat) : Bool := bitOf (vGet old 0x7800 0x0C) n == muxed d n
  let d := quietSmx (pathChange was { d with sense := { d.sense with
    sampled := if pathState d = 0 then [] else d.sense.sampled.filter (fun x => keep x.1) } })
  let d := if was = 1 ∧ pathState d = 1 ∧ [2, 3, 4, 0xC].any (fun x => vGet old 0x7800 x != rs d 0x7800 x) then
    mainStart (mainStop d) else d
  (d.sense.sensors.map (·.1)).foldl (fun d s =>
    if vGet old (0x7900 + s) 0x01 = sf d s 0x01 ∧ vGet old (0x7900 + s) 0x02 = sf d s 0x02 then d
    else modSensor d s (fun x => { x with m := 0 })) d

end Sys2Proof.Machine
end

