-- ==== Sys2Proof/Machine/Saps.lean ====
section
/-!
DEFINITION. Sys2Proof/Machine/Saps.lean: the serial audio ports and their converters (18 R551-R569), and the codes of
every output at a boundary with their fold (03 R91, R92; 17 R523).
-/
namespace Sys2Proof.Machine

/-- Indices of port n and its converter, an RS field, and PORT_STATE as stored: 0 disabled, 1 waiting, 2 running. -/
def sapIdx (n : Nat) : Nat := 0x7000 + 0x10 * n
def sapF (d : Dev) (n sub : Nat) : Nat := rs d (sapIdx n) sub
def sapOn (d : Dev) (n : Nat) : Bool := sapF d n 0x01 = 1
def sapState (d : Dev) (n : Nat) : Nat := oGet d (sapIdx n) 0x11
def setSapState (d : Dev) (n st : Nat) : Dev := oSet d (sapIdx n) 0x11 st

/-- Port n's record and its change. -/
def sapOf (d : Dev) (n : Nat) : Sap := mget Sap.zero d.saps n
def modSap (d : Dev) (n : Nat) (f : Sap → Sap) : Dev := { d with saps := mmod Sap.zero d.saps n f }

/-- The port is a master; it is synchronous (R552). -/
def sapMaster (d : Dev) (n : Nat) : Bool := sapF d n 0x02 = 1
def sapSync (d : Dev) (n : Nat) : Bool := sapMaster d n || oGet d 0x2020 0x0B == 2 + n

/-- PORT_STATE (R566). -/
def sapShown (d : Dev) (n : Nat) : Nat :=
  if sapOn d n = false then 0
  else if sapMaster d n then (if mediaRuns d then 2 else 1)
  else if sapState d n = 2 then (if sapSync d n then 2 else 3) else 1

/-- Set bits of a mask: N of R554. -/
def maskCount (m : Nat) : Nat := ((rangeFrom 0 32).filter (bitOf m)).length

/-- Output and input channels of port n. -/
def sapOuts (d : Dev) (n : Nat) : Nat := maskCount (sapF d n 0x09)
def sapIns (d : Dev) (n : Nat) : Nat := maskCount (sapF d n 0x08)

/-! ### Framing (R553, R554) -/

/-- BCLK periods of a frame. -/
def sapBclks (d : Dev) (n : Nat) : Nat := sapF d n 0x04 * sapF d n 0x05

/-- BCLK periods from the frame-start edge to the first data bit. -/
def sapDelay (d : Dev) (n : Nat) : Nat := match sapF d n 0x03 with
  | 0 => 1
  | 1 => 0
  | _ => b2n (bitOf (sapF d n 0x07) 1)

/-- Data and FSYNC are launched on the rising edge of BCLK and sampled on the falling one. -/
def sapSwapped (d : Dev) (n : Nat) : Bool := sapF d n 0x06 == 1

/-- The port drives its clocks: a master, enabled, while the media runs; else BCLK and FSYNC are held low (R552, R564). -/
def sapClocks (d : Dev) (n : Nat) : Bool := sapOn d n && sapMaster d n && mediaRuns d

/-- Level of a master's BCLK in half h of a period, which begins at the launch edge. -/
def sapBclk (d : Dev) (n h : Nat) : Bool := sapClocks d n && (decide (h % 2 = 1) != sapSwapped d n)

/-- Level of FSYNC in BCLK period t of a frame, as the framing has it. -/
def sapFrameSync (d : Dev) (n t : Nat) : Bool :=
  let sb := sapF d n 0x05
  let level := match sapF d n 0x03 with
    | 0 => decide (sb ≤ t)
    | 1 => decide (t < sb)
    | _ => decide (t < if bitOf (sapF d n 0x07) 0 then sb else 1)
  level != bitOf (sapF d n 0x07) 2

/-- Level of a master's FSYNC in BCLK period t of a frame. -/
def sapFsync (d : Dev) (n t : Nat) : Bool := sapClocks d n && sapFrameSync d n t

/-- Channel number of mask bit b, among the picked slots of pin 0 and then pin 1. -/
def sapChannel (m b : Nat) : Nat := maskCount (m % 2 ^ b)

/-- Slot word that goes out on slot i of pin DOp: that of its channel in the frame sent last, or zero for a slot not picked. -/
def sapSlot (d : Dev) (n p i : Nat) : Nat :=
  let b := 16 * p + i
  let m := sapF d n 0x09
  if bitOf m b then wrapU 32 (nth 0 (sapOf d n).last (sapChannel m b)) / 2 ^ (32 - sapF d n 0x05) else 0

/-- Level of DOp at data bit k of the frame sent last, most significant bit first; it is launched `sapDelay` periods after the
frame-start edge and k more. -/
def sapDo (d : Dev) (n p k : Nat) : Bool :=
  let sb := sapF d n 0x05
  bitOf (sapSlot d n p (k / sb)) (sb - 1 - k % sb)

/-- Slot word received on slot i of pin DIp, from the levels at the sampling edges of a frame. -/
def sapWordIn (d : Dev) (n : Nat) (levels : List Nat) (p i : Nat) : Nat :=
  let sb := sapF d n 0x05
  (rangeFrom (sapDelay d n + i * sb) sb).foldl (fun w t => 2 * w + b2n (bitOf (nth 0 levels t) p)) 0

/-- The slot words that IN_MASK picks, in channel order. -/
def sapPicked (d : Dev) (n : Nat) (levels : List Nat) : List Nat :=
  ((rangeFrom 0 32).filter (bitOf (sapF d n 0x08))).map (fun b => sapWordIn d n levels (b / 16) (b % 16))

/-! ### Outputs of a port -/

/-- The port carries outputs. DEDUCED: log entry 46. -/
def sapSends (d : Dev) (n : Nat) : Bool := sapOn d n && sapF d n 0x09 != 0

/-- A slot word of SLOT_BITS bits, left-justified in 32 bits, unsigned. -/
def leftWord (sb : Nat) (w : Int) : Int := (wrapU sb w * 2 ^ (32 - sb) : Nat)

/-- Output identifier of channel c of port n, and of channel c of Link port l. -/
def sapId (n c : Nat) : Nat := 0x0100 + 32 * n + c
def linkId (l c : Nat) : Nat := 0x0200 + 64 * l + c

/-- Keep the codes of one output. -/
def putCodes (d : Dev) (id : Nat) (l : List Int) : Dev :=
  { d with analog := { d.analog with codes := mput [] d.analog.codes id l } }

/-! ### Codes of a block (R555, R556) -/

/-- The bus word that OUT_SRC names: 0 for none. -/
def busWord (d : Dev) (src par i : Nat) : Int := if src = 0xFF then 0 else busRead d src par i

/-- Codes of the channels of port n from the buses. -/
def sapBus (par n : Nat) (d : Dev) (c : Nat) : Dev :=
  let sb := sapF d n 0x05
  putCodes d (sapId n c) ((rangeFrom 0 (blockLen d)).map (fun i =>
    leftWord sb (sat (rndConv (busWord d (sapF d n (0x20 + c)) par i) (32 - sb)) sb)))

/-- The 32-bit words of ring items. -/
def itemWords (l : List (BitVec 128)) : List Nat :=
  l.flatMap (fun v => (rangeFrom 0 4).map (fun i => v.toNat / 2 ^ (32 * i) % 2 ^ 32))

/-- Codes of the channels of port n from a block's words. -/
def sapWords (d : Dev) (n : Nat) (ws : List Nat) : Dev :=
  let sb := sapF d n 0x05
  let m := sapOuts d n
  (rangeFrom 0 m).foldl (fun d c => putCodes d (sapId n c) ((rangeFrom 0 (blockLen d)).map (fun f =>
    ((nth 0 ws (f * m + c) / 2 ^ (32 - sb) * 2 ^ (32 - sb) : Nat) : Int)))) d

/-- An underrun of an output of port n for a block (03 R89 bit 3). -/
def sapUnderrun (d : Dev) (n blk : Nat) : Dev := voidAt (bump (bump d (sapIdx n) 0x14) 0x0110 0x03) 3 blk

/-- A ring-mode port takes the items of block k (R556). -/
def sapRing (k : Nat) (d : Dev) (n : Nat) : Dev :=
  let q := sapF d n 0x0C
  let m := sapOuts d n * blockLen d / 4
  if k < 2 ∨ k < (sapOf d n).since + 2 then sapWords d n []
  else if (engineItems d q).length < m then sapUnderrun (sapWords d n []) n k
  else
    resumeProducers (sapWords (takeOut d q m) n (itemWords ((engineItems d q).take m))) q

/-- Port n's codes of block k; blocks 0 and 1 are zero codes. -/
def sapBlock (k par : Nat) (d : Dev) (n : Nat) : Dev :=
  if sapSends d n then
    if sapF d n 0x0B = 1 then sapRing k d n
    else if k < 2 then sapWords d n []
    else (rangeFrom 0 (sapOuts d n)).foldl (sapBus par n) d
  else d

/-- Channels of Link port l that enabled output streams of the active version cover, ascending (03 R91, 17 R523). -/
def linkChannels (d : Dev) (l : Nat) : List Nat :=
  let st (s : Nat) : Nat := rs d (linkIdx l) (0x20 + s)
  let on (s : Nat) : Bool := stOn (st s)
  let covers (s c : Nat) : Bool :=
    let x := st s
    stFirst x ≤ c && c < stFirst x + stCount x
  let live := (rangeFrom 0 16).filter on
  if live = [] then [] else (rangeFrom 0 64).filter (fun c => live.any (fun s => covers s c))

/-- Codes of a Link port's channels. -/
def linkBlock (k par : Nat) (d : Dev) (l : Nat) : Dev :=
  (linkChannels d l).foldl (fun d c => putCodes d (linkId l c) ((rangeFrom 0 (blockLen d)).map (fun i =>
    if k < 2 then 0 else wrapU 32 (linkSample d l c par i)))) d

/-- The codes of block k on every output; the buses are read and cleared (03 R79, 19 R571). A poisoned bus word of the
block voids it (22 R652). -/
def formBlock (d : Dev) (k : Nat) : Dev :=
  let par := k % 2
  let d := { d with analog := { d.analog with codes := [] } }
  let d := if k < 2 then d else (rangeFrom 0 24).foldl (mixBlock k par) d
  let d := (rangeFrom 0 4).foldl (sapBlock k par) d
  let d := (rangeFrom 0 4).foldl (linkBlock k par) d
  let d := if 2 ≤ k ∧ d.gourd.poison.any (busPoison d par) then voidAt d 0 k else d
  clearBus d par

/-! ### The digest (03 R91-R93) -/

/-- Enabled outputs, ascending by identifier. -/
def enabledIds (d : Dev) : List Nat :=
  ((rangeFrom 0 24).filter (anaOn d)).map anaId ++
  (rangeFrom 0 4).flatMap (fun n => if sapSends d n then (rangeFrom 0 (sapOuts d n)).map (sapId n) else []) ++
  (rangeFrom 0 4).flatMap (fun l => (linkChannels d l).map (linkId l))

/-- Fold one output into the digest of block k. -/
def foldOutput (d : Dev) (k : Nat) (acc id : Nat) : Nat :=
  let b := (mget [] d.analog.codes id).flatMap (fun c => toLE 4 (wrapU 32 c))
  rotl64 acc 7 ^^^ (id * 2 ^ 48 ||| (k % 65536) * 2 ^ 32 ||| crc32c b)

/-- Fold block k, and latch an armed mark at its block. -/
def foldBlock (d : Dev) (k : Nat) : Dev :=
  let d := if k < 2 then d
    else oSet (oSet d 0x0100 0x01 ((enabledIds d).foldl (foldOutput d k) (oGet d 0x0100 0x01))) 0x0100 0x02 k
  if oGet d 0x0100 0x05 = 1 ∧ oGet d 0x0100 0x03 = k then
    remind (remind (oSet (oSet d 0x0100 0x04 (oGet d 0x0100 0x01)) 0x0100 0x05 2) 0x0100 0x04) 0x0100 0x05
  else d

/-! ### Egress (R557; 17 R524) -/

/-- The frame for SIX six enters port n's FIFO. -/
def sapEnter (six : Nat) (d : Dev) (n : Nat) : Dev :=
  if sapSends d n then
    let i := six % blockLen d
    let ws := (rangeFrom 0 (sapOuts d n)).map (fun c => nth 0 (mget [] d.analog.codes (sapId n c)) i)
    let l := (sapOf d n).fifo ++ [(six, ws)]
    if 2 * blockLen d + 2 < l.length then
      let blk := match l with
        | x :: _ => x.1 / blockLen d
        | [] => 0
      let d := modSap d n (fun x => { x with fifo := l.drop 1 })
      voidAt (bump (bump d (sapIdx n) 0x15) 0x0110 0x03) 3 blk
    else modSap d n (fun x => { x with fifo := l })
  else d

/-- The samples of port l's 64 channels for SIX six: 0 for a channel that is not enabled. -/
def linkWords (d : Dev) (l six : Nat) : List Int :=
  (rangeFrom 0 64).map (fun c => nth 0 (mget [] d.analog.codes (linkId l c)) (six % blockLen d))

/-- A sample frame for SIX six enters the buffer of each enabled output stream of port l (17 R524), under the active version's
streams also before the port's next cycle: it goes out in that cycle or later. DESIGN CHOICE: log entry 69. -/
def linkEgress (six : Nat) (d : Dev) (l : Nat) : Dev :=
  (rangeFrom 0 16).foldl (fun d s =>
    if stOn (rs d (linkIdx l) (0x20 + s)) then streamIn l s six (linkWords d l six) d else d) d

/-- SAP_FRAME_START of port n: the oldest frame is sent, or the last again (R557). -/
def sapFrameStart (d : Dev) (n : Nat) : Dev :=
  let x := sapOf d n
  if x.sending = false then
    match x.fifo with
    | (_, ws) :: r =>
      if 3 ≤ x.fifo.length then modSap d n (fun x => { x with sending := true, fifo := r, last := ws })
      else modSap d n (fun x => { x with last := [] })
    | [] => modSap d n (fun x => { x with last := [] })
  else match x.fifo with
    | (_, ws) :: r => modSap d n (fun x => { x with fifo := r, last := ws })
    | [] => sapUnderrun d n (d.media.next / blockLen d)

/-- The frame of a synchronous port's latest engine sample starts, if it has not yet (R552). -/
def startDue (d : Dev) (n : Nat) : Dev :=
  if (sapOf d n).due then modSap (sapFrameStart d n) n (fun x => { x with due := false }) else d

/-- SAMPLE_EGRESS at port n: its frame enters. A synchronous port has one frame start per engine sample, after the entry: one
that no SAP_FRAME_START has brought comes before the next entry. DEDUCED: log entry 46. -/
def sapEgress (six : Nat) (d : Dev) (n : Nat) : Dev :=
  if sapSends d n then modSap (sapEnter six (startDue d n) n) n (fun x => { x with due := sapSync d n }) else d

/-- SAP_FRAME_START. -/
def execSapFrameStart (n : Nat) (s : State) : Out :=
  onAwake (fun d =>
    if n < 4 ∧ mediaRuns d ∧ sapSends d n then (if sapSync d n then startDue d n else sapFrameStart d n) else d) s

/-! ### Inputs (R558-R562) -/

/-- ASRC_STATE. -/
def asrcState (d : Dev) (n : Nat) : Nat := oGet d (0x7100 + n) 0x02

/-- Enter an ASRC state; leaving state 2 for 1 or 3 counts (R560). -/
def setAsrc (d : Dev) (n st : Nat) : Dev :=
  let d' := if asrcState d n = 2 ∧ (st = 1 ∨ st = 3) then bump d (0x7100 + n) 0x04 else d
  oSet d' (0x7100 + n) 0x02 st

/-- The converter of port n is on (ASRC_MODE 1). -/
def asrcOn (d : Dev) (n : Nat) : Bool := rs d (0x7100 + n) 0x01 == 1

/-- The port writes input frames. -/
def sapTakes (d : Dev) (n : Nat) : Bool := n < 4 && mediaRuns d && 2 ≤ sapShown d n && sapF d n 0x08 != 0

/-- An input frame's words enter IN_RING, or are dropped and counted. -/
def inputFrame (d : Dev) (n : Nat) (ws : List Nat) : Dev :=
  let q := sapF d n 0x0A
  let r := wordItems 16 ((sapOf d n).part ++ ws)
  if qRoom d q < r.1.length then bump d (sapIdx n) 0x13
  else qPushAll (modSap d n (fun x => { x with part := r.2 })) q r.1

/-- The words of the converter at an engine sample (R560); none in ASRC_STATE 0. Its samples follow the input frames and the
ratio. DESIGN CHOICE: log entry 14. -/
def converted (d : Dev) (n : Nat) : Option (List Nat) :=
  let x := sapOf d n
  match asrcState d n with
  | 0 => none
  | 2 =>
    let aged := x.frames.map (fun f => (x.pos - f.1, f.2))
    some ((rangeFrom 0 (sapIns d n)).map (fun c => Config.asrc aged (oGet d (0x7100 + n) 0x03) c % 2 ^ 32))
  | _ => some (List.replicate (sapIns d n) 0)

/-- The slot words that a frame gives, left-justified in 32 bits. -/
def frameWords (d : Dev) (n : Nat) (levels : List Nat) : List Nat :=
  (sapPicked d n levels).map (fun w => w * 2 ^ (32 - sapF d n 0x05))

/-- A valid frame ends a run of framing errors and takes the converter out of state 0, whether or not the port writes it (R560). -/
def sapHeard (d : Dev) (n : Nat) : Dev :=
  let e := modSap d n (fun x => { x with bad := 0 })
  if asrcOn e n ∧ asrcState e n = 0 then setAsrc e n 1 else e

/-- Keep the words of an input frame: twice the frames of the longest delay, 32 engine samples at ratio 4 and 48 frames (R560).
DESIGN CHOICE: log entry 46. -/
def keepFrame (d : Dev) (n : Nat) (ws : List Nat) : Dev :=
  modSap d n (fun x => { x with frames := ((x.pos, ws) :: x.frames).take 352 })

/-- A valid input frame on the pins of port n: it goes to the converter, or it is the engine sample's frame, unless that has one
(R558). A synchronous port has one frame in each engine sample, with a converter or without (R552). DESIGN CHOICE: log entry 46. -/
def sapInput (d : Dev) (n : Nat) (levels : List Nat) : Dev :=
  let ws := frameWords d n levels
  let due := (sapOf d n).inDue
  let d := sapHeard d n
  if sapSync d n && !due then d
  else
    let e := modSap (keepFrame d n ws) n (fun x => { x with inDue := false })
    if due && !asrcOn d n then inputFrame e n ws else e

/-- SAP_INPUT_FRAME: the levels of the data pins in one input frame. -/
def execSapInputFrame (n : Nat) (levels : List Nat) (s : State) : Out :=
  onAwake (fun d =>
    if sapTakes d n then sapInput d n levels
    else if n < 4 ∧ sapOn d n ∧ (mediaRuns d ∨ sapMaster d n = false) then sapHeard d n
    else d) s

/-- The frame of the latest engine sample has not come: the latest one stands for it. DESIGN CHOICE: log entry 46. -/
def frameAgain (d : Dev) (n : Nat) : Dev :=
  let x := sapOf d n
  match if x.inDue && (sapSync d n || !asrcOn d n) then x.frames else [] with
  | f :: _ => if asrcOn d n then keepFrame d n f.2 else inputFrame d n f.2
  | [] => d

/-- SAMPLE_EGRESS at the input side of port n: the frame of the new sample is due, and a converter writes its words (R558). -/
def sapSample (d : Dev) (n : Nat) : Dev :=
  if sapTakes d n = false then d
  else
    let e := modSap (frameAgain d n) n (fun x => { x with pos := x.pos + 1, inDue := true })
    match if asrcOn e n then converted e n else none with
    | some ws => inputFrame e n ws
    | none => e

/-- SAP_FRAMING_ERROR of a slave port: the fourth in a row without a valid frame ends the converter's state (R560).
DEDUCED: log entry 46. -/
def execSapFramingError (n : Nat) (s : State) : Out :=
  onAwake (fun d =>
    if n < 4 ∧ sapOn d n ∧ sapMaster d n = false then
      let e := modSap (bump d (sapIdx n) 0x12) n (fun x => { x with bad := min 4 (x.bad + 1) })
      if 3 ≤ (sapOf d n).bad then setAsrc e n 0 else e
    else d) s

/-- SAP_CLOCKS_VALID: the slave port runs; its measured frame rate in mHz and BCLK in Hz. -/
def execSapClocksValid (n rate bclk : Nat) (s : State) : Out :=
  onAwake (fun d =>
    if n < 4 ∧ sapOn d n ∧ sapMaster d n = false then
      let d := modSap d n (fun x => if sapState d n = 2 then x else { x with frames := [], inDue := false, bad := 0 })
      let d := oSet (oSet (setSapState d n 2) (sapIdx n) 0x0F (rate % 2 ^ 32)) (sapIdx n) 0x10 (bclk % 2 ^ 32)
      if rs d (0x7100 + n) 0x01 = 1 ∧ asrcState d n = 0 then setAsrc d n 1 else d
    else d) s

/-- ASRC_LOCK: an estimate of the ratio; one outside 0.25 to 4 puts the converter out of range, one that is not stable back to
acquiring. -/
def execAsrcLock (n : Nat) (e : Estimate) (s : State) : Out :=
  onAwake (fun d =>
    if n < 4 ∧ sapOn d n ∧ rs d (0x7100 + n) 0x01 = 1 ∧ asrcState d n ≠ 0 then
      let ratio := e.ratio % 2 ^ 32
      let ok := 2 ^ 22 ≤ ratio ∧ ratio ≤ 2 ^ 26
      let d := oSet (setAsrc d n (if ¬ ok then 3 else if e.stable then 2 else 1)) (0x7100 + n) 0x03 ratio
      if ok ∧ e.stable then oSet d (0x7100 + n) 0x05 (8192 + roundDiv (48 * 256 * 2 ^ 24) ratio) else d
    else d) s

/-! ### Start, stop and switches (R564, R565) -/

/-- The converter of an enabled master goes to state st: its frames come while the media runs (R552, R560). -/
def masterAsrc (st : Nat) (d : Dev) (n : Nat) : Dev :=
  if sapOn d n ∧ sapMaster d n ∧ rs d (0x7100 + n) 0x01 = 1 then setAsrc d n st else d

/-- A media start: FIFOs are empty, and masters' frames begin. -/
def startSaps (d : Dev) : Dev :=
  (rangeFrom 0 4).foldl (fun d n =>
    masterAsrc 1 (modSap d n (fun x => { x with fifo := [], last := [], sending := false, since := 0, due := false, inDue := false, frames := [] })) n) d

/-- The media stops: zero codes, and masters' frames end. -/
def stopSaps (d : Dev) : Dev :=
  (rangeFrom 0 4).foldl (fun d n =>
    masterAsrc 0 (modSap d n (fun x => { x with fifo := [], last := [], sending := false, due := false, inDue := false, frames := [] })) n) d

/-- Port n is disabled (R564). -/
def sapDisable (d : Dev) (n : Nat) : Dev :=
  let d := modSap d n (fun _ => Sap.zero)
  oSet (setSapState d n 0) (0x7100 + n) 0x02 0

/-- Port n is enabled at boundary b (R565). A master's converter sees its own frames. -/
def sapEnable (d : Dev) (n b : Nat) : Dev :=
  let d := setSapState (modSap d n (fun _ => { Sap.zero with since := b })) n 1
  if mediaRuns d then masterAsrc 1 d n else d

/-- Fields whose change restarts an enabled port. -/
def sapSubs : List Nat := [0x02, 0x03, 0x04, 0x05, 0x06, 0x07, 0x08, 0x09, 0x0B, 0x0A, 0x0C]

/-- Port n at a switch effective at boundary b: true where its disabling takes away the media's reference. -/
def switchSap (old : Version) (b : Nat) (d : Dev) (n : Nat) : Dev :=
  let was := vGet old (sapIdx n) 0x01 = 1
  let changed := sapSubs.any (fun x => vGet old (sapIdx n) x != sapF d n x)
  if sapOn d n = false then (if was then sapDisable d n else d)
  else if was = false ∨ changed then sapEnable (sapDisable d n) n b
  else if vGet old (0x7100 + n) 0x01 ≠ rs d (0x7100 + n) 0x01 then
    setAsrc d n (if rs d (0x7100 + n) 0x01 = 1 ∧ 2 ≤ sapShown d n then 1 else 0)
  else d

end Sys2Proof.Machine
end

