-- ==== Sys2Proof/Machine/TuberOps.lean ====
section
/-!
DEFINITION. Sys2Proof/Machine/TuberOps.lean: Tuber (12 R332-R361): regions, errors, the head store, streams, VERIFY,
DMA, moves.
-/
namespace Sys2Proof.Machine

/-! ### Memory (R335-R337) -/

/-- FITTED bytes: 2 to 16 GiB (R332). -/
def fittedBytes : Nat := max (2 ^ 31) (min (2 ^ 34) Config.fittedBytes)

/-- CAPACITY (R335, R363). DESIGN CHOICE: log entry 4. -/
def capacity (d : Dev) : Nat :=
  if oGet d 0x6850 0x01 = 3 ∨ oGet d 0x6851 0x01 = 3 then 0 else 7 * fittedBytes / 8

/-- Channel of a data address, and the address of its burst within the channel ÷ 32 (R335, R356). -/
def tChan (a : Nat) : Nat := a / 3584 % 2
def tBurst (a : Nat) : Nat := (a / 7168 * 4096 + a % 3584 / 64 * 64) / 32

/-- First data address of the burst that holds a. -/
def burstBase (a : Nat) : Nat := a / 3584 * 3584 + a % 3584 / 64 * 64

/-- MR4 gives the refresh rate of channel c (R333, R363): a free value among 1, 2 and 4. DESIGN CHOICE: log entry 37. -/
def readMr4 (d : Dev) (c : Nat) : Dev :=
  let k := takeFree d
  oSet k.2 (0x6850 + c) 0x06 (2 ^ (Config.freeNat k.1 % 3))

/-! ### Regions (R338-R343) -/

/-- Entry field of region r. -/
def rgn (v : Version) (r sub : Nat) : Nat := vGet v 0x6801 sub r

/-- Bytes of region r in a version. -/
def rgnBytes (v : Version) (r : Nat) : Nat := rgn v r 0x03 * fmtBytes (rgn v r 0x04)

/-- Regions enabled in a version, ascending. -/
def enabledRegions (v : Version) : List Nat :=
  (v.vals.filter (fun c => c.1 / 131072 = 0x680101 ∧ c.2 = 1)).map (·.1 % 131072)

/-- Regions of which a version lists an entry field. -/
def listedRegions (v : Version) : List Nat :=
  ((v.vals.filter (fun c => c.1 / 131072 / 256 = 0x6801)).map (·.1 % 131072)).eraseDups

/-- [a, a + n) meets [b, b + m). -/
def meets (a n b m : Nat) : Bool := decide (a < b + m) && decide (b < a + n) && decide (0 < n) && decide (0 < m)

/-- Bytes [a, a + n) meet the bytes of region r's active entry. -/
def inRegion (d : Dev) (a n r : Nat) : Bool := meets a n (rgn d.ver.active r 0x02) (rgnBytes d.ver.active r)

/-- Oscillators of every voice in a slot or a lane. -/
def allOscs (d : Dev) : List Osc := d.alloc.slots.flatMap (fun x => x.2.oscs) ++ d.alloc.lanes.flatMap (fun x => x.2.oscs)

/-- An oscillator reads its region's head. -/
def readsHead (d : Dev) (o : Osc) : Bool := match o.zone with
  | some z => !o.ended && decide (o.pos / (2 ^ 48 : Nat) < (headLen d z.region : Nat))
  | none => false

/-- Zones in use: those of open streams, and of oscillators that read a head. -/
def usedZones (d : Dev) : List Zone :=
  d.tuber.streams.map (·.zone) ++ ((allOscs d).filter (readsHead d)).filterMap (·.zone)

/-- USERS of a region (R348). -/
def usersOf (d : Dev) (r : Nat) : Nat := ((usedZones d).filter (fun z => z.region = r)).length

/-- A move has switched and a fetch of the old range may still be on its way: the old bytes still belong (R358). -/
def oldHeld (d : Dev) : Bool := oGet d 0x6830 0x04 == 3 && d.tuber.switched

/-- A write of [a, a + n) is covered by R342: bytes of an enabled region, of one in use, or those that its users still read. -/
def covered (d : Dev) (a n : Nat) : Bool :=
  (enabledRegions d.ver.active).any (inRegion d a n) ||
  (usedZones d).any (fun z => inRegion d a n z.region || meets a n z.start (z.len * fmtBytes z.fmt)) ||
  (oldHeld d && meets a n (oGet d 0x6830 0x06) (rgnBytes d.ver.active (oGet d 0x6830 0x05)))

/-- Set VERIFY_STATE; a pass under way on the region ends. -/
def setVerify (d : Dev) (r st : Nat) : Dev :=
  { d with tuber := { d.tuber with
      verify := mput 0 d.tuber.verify r st
      verifying := if d.tuber.verifying = some r ∧ st ≠ 1 then none else d.tuber.verifying } }

/-- A faulted region is written again (R356). DEDUCED: log entry 44. -/
def rewritten (d : Dev) (r : Nat) : Dev := { d with tuber := { d.tuber with faulted := mput 0 d.tuber.faulted r 2 } }

/-- A write of [a, a + n) begins: VERIFY_STATE of every region it meets returns to 0 (R341). -/
def touchRegions (d : Dev) (a n : Nat) : Dev :=
  let d := ((d.tuber.faulted.map (·.1)).filter (inRegion d a n)).foldl rewritten d
  ((d.tuber.verify.map (·.1)).filter (inRegion d a n)).foldl (fun d r => setVerify d r 0) d

/-- Bytes land in Tuber. -/
def tuberWrite (d : Dev) (a : Nat) (bs : List Byte) : Dev :=
  let d := touchRegions d a bs.length
  { d with tuber := { d.tuber with mem := mwrite d.tuber.mem a bs } }

/-- A region is not valid until it is rewritten and passes VERIFY (R356). -/
def markFaulted (d : Dev) (r : Nat) : Dev := { d with tuber := { d.tuber with faulted := mput 0 d.tuber.faulted r 1 } }

/-- An enabled region is faulted: STATE 2 (R356). -/
def faultRegion (d : Dev) (r : Nat) : Dev :=
  let d := markFaulted d r
  { d with tuber := { d.tuber with region := mput 0 d.tuber.region r 2 } }

/-- A read finds an uncorrectable error in the burst at a (R356): of every region that contains it VERIFY_STATE becomes 3
(R341), and an enabled one is faulted. -/
def tuberUe (d : Dev) (a : Nat) : Dev :=
  let c := tChan a
  let rs' := (enabledRegions d.ver.active).filter (inRegion d (burstBase a) 64)
  let d := oSet (bump d (0x6850 + c) 0x04) (0x6850 + c) 0x05 (tBurst a)
  let d := addFault d 0x04 (0xD0 + c) 0 0xFF 0 (rs'.head?.getD 0xFFFF) (tBurst a)
  let d := rs'.foldl faultRegion d
  ((listedRegions d.ver.active).filter (inRegion d (burstBase a) 64)).foldl (fun d r => setVerify d r 3) d

/-- Errors met by a read, each a data address and whether it is uncorrectable (R336); records of one moment stand in
ascending UNIT order (05 R168). -/
def tuberErrs (d : Dev) (l : List (Nat × Bool)) : Dev :=
  (sortBy (fun a b => decide (tChan a.1 < tChan b.1)) l).foldl (fun d e => if e.2 then tuberUe d e.1 else bump d (0x6850 + tChan e.1) 0x03) d

/-- Addresses of bursts with uncorrectable errors. -/
def badOf (l : List (Nat × Bool)) : List Nat := (l.filter (·.2)).map (·.1)

/-- Byte a lies in a bad burst. -/
def isBad (bad : List Nat) (a : Nat) : Bool := bad.any (fun b => burstBase b = burstBase a)

/-- n bytes from address a as a mover reads them: a byte of a bad burst is a free value.
DESIGN CHOICE: log entry 14. -/
def tuberRead (bad : List Nat) : Nat → Nat → Dev → List Byte × Dev
  | 0, _, d => ([], d)
  | n + 1, a, d =>
    let (b, d) := if isBad bad a then
        let (k, d) := takeFree d
        (BitVec.ofNat 8 (Config.freeNat k), d)
      else (mget 0#8 d.tuber.mem a, d)
    let r := tuberRead bad n (a + 1) d
    (b :: r.1, r.2)

/-- Patrol scrub of a word (R337). -/
def execTuberScrub (a : Nat) (st : MemSt) (s : State) : Out :=
  onAwake (fun d => match st with
    | .corrected => tuberErrs d [(a, false)]
    | .uncorrectable => tuberErrs d [(a, true)]
    | .ok | .conflict => d) s

/-! ### The head store (R345-R347) -/

/-- H of region r in a version. -/
def headFrames (v : Version) (r : Nat) : Nat := min (vGet v 0x6820 0x04) (rgn v r 0x03)

/-- Bytes that a head of h frames of a format takes. -/
def headSize (h fmt : Nat) : Nat := ceilDiv (h * fmtBytes fmt) 64 * 64

/-- Bytes that the head of region r takes in a version. -/
def headBytes (v : Version) (r : Nat) : Nat := headSize (headFrames v r) (rgn v r 0x04)

/-- Bytes that the head held for region r takes. -/
def heldBytes (d : Dev) (r : Nat) : Nat := match mfind d.tuber.heads r with
  | some x => headSize x.1 x.2
  | none => 0

/-- Regions armed in a version. -/
def armedRegions (v : Version) : List Nat :=
  let named := namedRegions v
  (enabledRegions v).filter (fun r => rgn v r 0x08 = 1 || named.contains r)

/-- HEAD_USED. -/
def headUsed (d : Dev) : Nat := (d.tuber.heads.map (fun c => heldBytes d c.1)).sum

/-- Armed regions of version v whose heads must be filled: those that become armed, those whose head is not held, and those
whose head grows. DEDUCED: log entry 27. -/
def headsToFill (d : Dev) (v : Version) : List Nat :=
  let now := armedRegions d.ver.active
  (armedRegions v).filter (fun r => !now.contains r || decide (headLen d r < headFrames v r) || (mfind d.tuber.heads r).isNone)

/-- Heads needed by version v with those held (R347), in bytes; a head held for a region that v arms counts once, at the
larger size. DEDUCED: log entry 27. -/
def headsNeeded (d : Dev) (v : Version) : Nat :=
  let l := armedRegions v
  (l.map (fun r => max (headBytes v r) (heldBytes d r))).sum +
    ((d.tuber.heads.filter (fun c => !l.contains c.1)).map (fun c => heldBytes d c.1)).sum

/-- Fill the head of region r; bursts with errors leave it not held and the region not valid (R356). -/
def fillHead (v : Version) (errs : List (Nat × Bool)) (d : Dev) (r : Nat) : Dev :=
  let h := headFrames v r
  let es := errs.filter (fun e => meets (burstBase e.1) 64 (rgn v r 0x02) (h * fmtBytes (rgn v r 0x04)))
  let d := tuberErrs d es
  if badOf es = [] then
    let d := clearPoison d (fun w => (rangeFrom 0 (headBytes v r / 8)).any (fun k => headWordAt r k = 8 * w))
    { d with tuber := { d.tuber with heads := mins d.tuber.heads r (h, rgn v r 0x04) } }
  else
    let d := markFaulted d r
    { d with tuber := { d.tuber with heads := mdel d.tuber.heads r } }

/-- Fill every head that version v arms (R346). DEDUCED: log entry 27. -/
def fillHeads (d : Dev) (v : Version) (errs : List (Nat × Bool)) : Dev := (headsToFill d v).foldl (fillHead v errs) d

/-- At a boundary: heads of regions not armed (nor armed by a version whose switch is pending) and without users leave; a
head without users that is longer than the active HEAD_FRAMES gives shrinks. DEDUCED: log entry 27. -/
def dropHeads (d : Dev) : Dev :=
  let next := match d.ver.stage, d.ver.staging, d.ver.previous with
    | .commitPending, some v, _ => armedRegions v
    | .revertPending, _, some v => armedRegions v
    | _, _, _ => []
  let keep := armedRegions d.ver.active ++ next
  { d with tuber := { d.tuber with
      heads := (d.tuber.heads.filter (fun c => keep.contains c.1 || usersOf d c.1 != 0)).map (fun c =>
        if next = [] ∧ keep.contains c.1 ∧ usersOf d c.1 = 0 then (c.1, min c.2.1 (headFrames d.ver.active c.1), c.2.2) else c) } }

/-- Fields of an entry whose change ends its verification (R341). -/
def entryChanged (old new : Version) (r : Nat) : Bool :=
  [0x02, 0x03, 0x04, 0x07].any (fun s => rgn old r s != rgn new r s)

/-- A switch from version `old` changes region r (R341, R342): a region that becomes enabled takes STATE 1, unless an
uncorrectable error has faulted it and it has not been rewritten and verified since (R356). -/
def switchRegion (old : Version) (d : Dev) (r : Nat) : Dev :=
  let d := if entryChanged old d.ver.active r then setVerify d r 0 else d
  let a := rgn old r 0x01
  let b := rgn d.ver.active r 0x01
  let set (d : Dev) (st : Nat) : Dev := { d with tuber := { d.tuber with region := mput 0 d.tuber.region r st } }
  if b = 0 then set d 0
  else if a = 0 ∧ regionState d r = 0 then
    set d (if mget 0 d.tuber.faulted r = 0 then 1 else 2)
  else d

/-- Every region that a switch touches. -/
def switchRegions (d : Dev) (old : Version) : Dev :=
  ((listedRegions old ++ listedRegions d.ver.active).eraseDups).foldl (switchRegion old) d

/-! ### Streams (R348, R349) -/

/-- Frames that a stream buffer holds. -/
def bufFrames (d : Dev) (z : Zone) : Nat := rs d 0x6820 0x03 * 1024 / fmtBytes z.fmt

/-- First addresses of frame j where a fetch may read it: the range of its zone, and until the last fetch of the old range of a
move has landed, that range too (R358). -/
def frameAts (d : Dev) (z : Zone) (j : Nat) : List Nat :=
  (if oldHeld d ∧ oGet d 0x6830 0x05 = z.region then [z.start, oGet d 0x6830 0x06] else [z.start]).map (fun a => a + j * fmtBytes z.fmt)

/-- The burst of an error holds a byte of frame j. -/
def frameHit (d : Dev) (z : Zone) (j a : Nat) : Bool := (frameAts d z j).any (fun x => meets (burstBase a) 64 x (fmtBytes z.fmt))

/-- Frame j of a zone has a byte in a bad burst. -/
def frameBad (d : Dev) (bad : List Nat) (z : Zone) (j : Nat) : Bool := bad.any (frameHit d z j)

/-- Words of a stream's buffer that frames `js` write whole. -/
def wholeWords (z : Zone) (js : List Nat) : List Nat :=
  let fb := fmtBytes z.fmt
  ((js.map (fun j => j * fb / 8)) ++ (js.map (fun j => (j * fb + fb - 1) / 8))).eraseDups.filter (fun w =>
    (rangeFrom (8 * w) 8).all (fun a => js.contains (a / fb)))

/-- The voice with a serial number, in a slot or in a lane. -/
def voiceOf (d : Dev) (serial : Nat) : Option Voice :=
  ((d.alloc.slots ++ d.alloc.lanes).find? (fun x => x.2.serial = serial)).map (·.2)

/-- Frames that one sample at a position reads: its taps, and those of its crossfade partner (06 R191, R193). -/
def framesAt (u : LoopUse) (len xfade : Nat) (st : Int × Bool × Bool) : List Nat :=
  let one : Int := (2 ^ 48 : Nat)
  let taps (j : Int) : List Int := [j - 1, j, j + 1, j + 2]
  let own := (taps (st.1 / one)).map (tapMap u st.2.2)
  let pair := match xfadeAt u len xfade st.2.1 st.1 with
    | some x => taps (x.1 / one)
    | none => []
  ((own ++ pair).filter (fun j => decide (0 ≤ j) && decide (j < (len : Int)))).map (·.toNat)

/-- Up to `room` frames past the head of h frames in playback order from a position; n bounds the frames walked. -/
def playOrder (u : LoopUse) (len xfade h room : Nat) : Nat → Int × Bool × Bool → List Nat → List Nat
  | 0, _, acc => acc
  | n + 1, st, acc =>
    let new := ((framesAt u len xfade st).filter (fun j => decide (h ≤ j) && !acc.contains j)).eraseDups
    playOrder u len xfade h room n (playAdvance u st.1 (2 ^ 48 : Nat) st.2.1 st.2.2) ((acc ++ new).take room)

/-- The frames that a stream's buffer is to hold next, in playback order (R348, R349): from H onward until the view shows the
position and direction of its oscillator, and from there afterwards. DEDUCED: log entry 62. -/
def wanted (d : Dev) (x : Stream) (v : Voice) : List Nat :=
  let u := loopOf v.lat x.osc x.zone v.rel.isSome
  let h := headLen d x.zone.region
  let one : Int := (2 ^ 48 : Nat)
  let first := playAdvance u (((h : Int) - 1) * one) one true false
  let st := match statusAt v (latestWindow d) with
    | some w => if x.begun then nth first w.play x.osc else first
    | none => first
  let room := bufFrames d x.zone
  playOrder u x.zone.len (oU v.lat x.osc 46 2) h room (h + 2 * room + 4) st []

/-- A fetch of the next n frames of a stream lands `lat` ns after its window opened: visible from the next window (R349).
Frames of bursts with uncorrectable errors are not written (R356). -/
def landFetch (d : Dev) (serial osc n : Nat) (errs : List (Nat × Bool)) (lat : Nat) : Dev :=
  match d.tuber.streams.find? (fun x => x.serial = serial && x.osc = osc), voiceOf d serial with
  | some x, some v =>
    let held := (x.frames ++ x.fresh).map (·.1)
    let want := wanted d x v
    let js := (want.filter (fun j => !held.contains j)).take n
    let es := errs.filter (fun e => js.any (fun j => frameHit d x.zone j e.1))
    let got := (js.filter (fun j => !frameBad d (badOf es) x.zone j)).map (fun j => (j, regionFrame d x.zone j))
    let d := tuberErrs d es
    let d := if x.begun then d else oSet d 0x6820 0x0E (max (oGet d 0x6820 0x0E) (min lat (2 ^ 32 - 1)))
    let d := clearPoison d (fun w => (wholeWords x.zone (got.map (·.1))).any (fun k => streamWordAt d serial osc k = 8 * w))
    let ahead (f : Nat × Int × Int) : Bool := want.contains f.1
    { d with tuber := { d.tuber with streams := d.tuber.streams.map (fun y =>
        if y.serial = serial ∧ y.osc = osc then
          { y with frames := y.frames.filter (fun f => !ahead f) ++ y.frames.filter ahead, fresh := y.fresh ++ got, begun := true }
        else y) } }
  | _, _ => d

/-- A window opens: frames that landed become visible, and a buffer keeps the newest that it has room for. -/
def showFrames (d : Dev) : Dev :=
  { d with tuber := { d.tuber with streams := d.tuber.streams.map (fun y =>
      { y with frames := lastN (bufFrames d y.zone) (y.frames.filter (fun f => !y.fresh.any (fun g => g.1 = f.1)) ++ y.fresh), fresh := [] }) } }

/-- STREAM_FETCH_LANDED. -/
def execStreamFetchLanded (serial osc n : Nat) (errs : List (Nat × Bool)) (lat : Nat) (s : State) : Out :=
  onAwake (fun d => landFetch d serial osc n errs lat) s

/-! ### Booking (R351, R352) -/

/-- BOOKED of a version. DEDUCED: log entry 55. -/
def bookedOf (v : Version) : Nat :=
  let sb := vGet v 0x6820 0x01 * rateHz (vGet v 0x2010 0x01) * vGet v 0x6820 0x02 * 6
  let mb := ((rangeFrom 0 8).map (fun c => vGet v 0x6820 (0x11 + 8 * c))).sum +
    vGet v 0x6820 0x05 + vGet v 0x6820 0x06 + vGet v 0x6820 0x07
  ceilDiv (8 * (sb + 256 * (mb * 10 ^ 6))) (256 * 7 * 10 ^ 6)

/-- BOOK_LIMIT of a version. DEDUCED: log entry 55. -/
def bookLimit (v : Version) : Nat := 32 * vGet v 0x6810 0x01 / 5

/-! ### VERIFY (R341) -/

/-- The entry breaks the first item of R340. -/
def entryBad (d : Dev) (v : Version) (r : Nat) : Bool :=
  rgn v r 0x02 % 64 != 0 || rgn v r 0x03 == 0 || decide (capacity d < rgn v r 0x02 + rgnBytes v r)

/-- VERIFY of region r: the answer's code and the state. -/
def verifyGo (d : Dev) (r : Nat) : Nat × Dev :=
  if d.tuber.verifying.isSome then (7, d)
  else if rs d 0x6820 0x06 = 0 ∨ entryBad d d.ver.active r then (4, d)
  else (0, let d := setVerify d r 1; { d with tuber := { d.tuber with verifying := some r } })

/-- The pass ends; one that is passed clears a faulted region that has been rewritten (R356). DEDUCED: log entry 44. -/
def verifyDone (d : Dev) (errs : List (Nat × Bool)) : Dev :=
  match d.tuber.verifying with
  | none => d
  | some r =>
    if d.tuber.retraining then d
    else
      let es := errs.filter (fun e => inRegion d (burstBase e.1) 64 r)
      let d := tuberErrs d es
      let x := tuberRead (badOf es) (rgnBytes d.ver.active r) (rgn d.ver.active r 0x02) d
      let c := crc32c x.1
      let d := { x.2 with tuber := { x.2.tuber with verifyCrc := mput 0 x.2.tuber.verifyCrc r c } }
      let ok := badOf es = [] ∧ c = rgn d.ver.active r 0x07
      let d := setVerify d r (if ok then 2 else 3)
      let left := if ok ∧ mget 0 d.tuber.faulted r = 2 then mdel d.tuber.faulted r else d.tuber.faulted
      { d with tuber := { d.tuber with verifying := none, faulted := left } }

/-- VERIFY_DONE. -/
def execVerifyDone (errs : List (Nat × Bool)) (s : State) : Out := onAwake (fun d => verifyDone d errs) s

/-! ### DMA (R353-R355) -/

/-- Field f of channel c. -/
def dmaF (d : Dev) (c f : Nat) : Nat := rs d 0x6820 (0x10 + 8 * c + f)

/-- The OWNER of channel c is frozen. -/
def ownerFrozen (d : Dev) (c : Nat) : Bool :=
  let o := dmaF d c 0
  if 0xC0 ≤ o ∧ o < 0xC8 then frozen d (o - 0xC0) else coreFrozen d (o - 0x40)

/-- Cause 6 freezes the OWNER (R354). -/
def freezeOwner (d : Dev) (c : Nat) : Dev :=
  let o := dmaF d c 0
  if 0xC0 ≤ o ∧ o < 0xC8 then freezePort d (o - 0xC0) 6 0
  else if 0x40 ≤ o ∧ o < 0x54 then freezeCore d (o - 0x40) 6 0 else d

/-- The move in progress reserves [a, a + n). -/
def moveReserves (d : Dev) (a n : Nat) : Bool :=
  let st := oGet d 0x6830 0x04
  1 ≤ st && st ≤ 3 && meets a n d.tuber.moveTo (rgnBytes d.ver.active (oGet d 0x6830 0x05))

/-- Status with which a descriptor is refused, 0 for one that is accepted: the three tests of R354 in its order, and then the
ranges of R353. DEDUCED: log entry 44. -/
def dmaStatus (d : Dev) (c : Nat) (j : DmaJob) (opByte : Nat) : Nat :=
  let gmem := j.op = 1 ∨ j.op = 2
  if 3 < opByte ∨ j.taddr % 4 ≠ 0 ∨ j.count % 4 ≠ 0 ∨ (gmem ∧ j.gaddr % 8 ≠ 0) ∨ (¬ gmem ∧ 4096 ≤ j.gaddr) then 1
  else if j.op % 2 = 0 ∧ (covered d j.taddr j.count || moveReserves d j.taddr j.count) then 2
  else if j.taddr < dmaF d c 2 ∨ dmaF d c 2 + dmaF d c 3 < j.taddr + j.count ∨
     (gmem ∧ (j.gaddr < dmaF d c 4 ∨ dmaF d c 4 + dmaF d c 5 < j.gaddr + j.count)) then 3
  else if j.count = 0 ∨ 16777216 < j.count ∨ capacity d < j.taddr + j.count then 1
  else 0

/-- The job of channel c. -/
def jobOf (d : Dev) (c : Nat) : Option DmaJob := mget none d.tuber.jobs c
def setJob (d : Dev) (c : Nat) (j : Option DmaJob) : Dev := { d with tuber := { d.tuber with jobs := mput none d.tuber.jobs c j } }

/-- Bytes moved by a job. -/
def moved (j : DmaJob) (bs : List Byte) : DmaJob :=
  { j with waits := false, moved := j.moved + bs.length, crc := crcRun 0x82F63B78 j.crc bs }

/-- OP 0: items of the ring move while there are any; n bounds them. -/
def ringToTuber : Nat → Dev → Nat → Dev
  | 0, d, _ => d
  | n + 1, d, c => match jobOf d c with
    | some j =>
      if j.status = 0 ∧ j.moved < j.count ∧ engineItems d j.gaddr ≠ [] then
        let x := qTake d j.gaddr
        let bs := (toLE 16 x.1.toNat).take (j.count - j.moved)
        ringToTuber n (setJob (tuberWrite x.2.2 (j.taddr + j.moved) bs) c (some (moved j bs))) c
      else d
    | none => d

/-- OP 3: items move while the ring has room. -/
def tuberToRing : Nat → Dev → Nat → Dev
  | 0, d, _ => d
  | n + 1, d, c => match jobOf d c with
    | some j =>
      if (j.status = 0 ∨ j.status = 4) ∧ j.moved < j.count ∧ qRoom d j.gaddr ≠ 0 then
        let x := tuberRead j.bad (min 16 (j.count - j.moved)) (j.taddr + j.moved) d
        tuberToRing n (setJob (qFill x.2 j.gaddr (BitVec.ofNat 128 (fromLE x.1))) c (some (moved j x.1))) c
      else d
    | none => d

/-- Channel c has bytes to move into a ring that has no room for them: the wait is counted once (16 R493). -/
def ringWait (d : Dev) (c : Nat) : Dev := match jobOf d c with
  | some j =>
    if (j.status = 0 ∨ j.status = 4) ∧ j.moved < j.count ∧ qRoom d j.gaddr = 0 ∧ j.waits = false then
      fullWait (setJob d c (some { j with waits := true })) j.gaddr
    else d
  | none => d

/-- A channel moves what its ring lets it; while the channels retrain it waits (R334). -/
def dmaChan (d : Dev) (c : Nat) : Dev := if d.tuber.retraining then d else match jobOf d c with
  | none => d
  | some j =>
    if j.op = 0 then
      let d := ringToTuber (engineItems d j.gaddr).length d c
      resumeProducers d j.gaddr
    else if j.op = 3 then ringWait (tuberToRing (qRoom d j.gaddr) d c) c
    else d

/-- Every channel. -/
def dmaPump (d : Dev) : Dev := d.tuber.jobs.foldl (fun d x => dmaChan d x.1) d

/-- Channel c takes the next descriptor from its ring and checks it; it begins none while its completion queue is full (16 R493). -/
def dmaTake (d : Dev) (c : Nat) (errs : List (Nat × Bool)) : Dev :=
  if 8 ≤ c ∨ dmaF d c 0 = 0xFF ∨ ownerFrozen d c ∨ (jobOf d c).isSome ∨ d.tuber.retraining ∨ engineItems d (dmaF d c 6) = [] then d
  else if qRoom d (dmaF d c 7) = 0 then fullWait d (dmaF d c 7)
  else
    let x := qTake d (dmaF d c 6)
    let d := resumeProducers x.2.2 (dmaF d c 6)
    let b := toLE 16 x.1.toNat
    let f (o n : Nat) : Nat := fromLE ((b.drop o).take n)
    let j : DmaJob := ⟨f 0 5, f 5 1 % 16, f 6 2, f 8 4, f 12 4, 0, 0, 0xFFFFFFFF, [], false⟩
    let st := dmaStatus d c j (f 5 1)
    if st ≠ 0 then
      let d := setJob d c (some { j with status := st })
      if st = 3 then freezeOwner d c else d
    else
      let d := if j.op = 2 then gourdErrs d (errs.filter (fun e => meets (e.1 / 8 * 8) 8 j.gaddr j.count))
        else if j.op = 0 then d
        else tuberErrs d (errs.filter (fun e => meets (burstBase e.1) 64 j.taddr j.count))
      let bad := (badOf errs).filter (fun a => meets (burstBase a) 64 j.taddr j.count)
      let poisoned := d.gourd.poison.any (fun w => meets (8 * w) 8 j.gaddr j.count)
      let ue := (j.op = 2 ∧ poisoned) ∨ (j.op % 2 = 1 ∧ bad ≠ [])
      let d := if j.op % 2 = 0 then touchRegions d j.taddr j.count else d
      dmaChan (setJob d c (some { j with status := if ue then 4 else 0, bad := if j.op % 2 = 1 then bad else [] })) c

/-- The bytes of a job between Tuber and Gourd move. -/
def dmaMove (d : Dev) (j : DmaJob) : Dev × DmaJob :=
  if 1 ≤ j.status ∧ j.status ≤ 3 then (d, j)
  else if j.op = 1 then
    let x := tuberRead j.bad j.count j.taddr d
    (gWrite x.2 j.gaddr x.1, moved j x.1)
  else if j.op = 2 then
    let bs := gourdBytes d j.gaddr j.count
    (tuberWrite d j.taddr bs, moved j bs)
  else (d, j)

/-- The completion item of a job (R355). -/
def dmaItem (j : DmaJob) : BitVec 128 :=
  BitVec.ofNat 128 (j.tag + 2 ^ 16 * j.status + 2 ^ 32 * (j.crc ^^^ 0xFFFFFFFF) + 2 ^ 64 * j.moved)

/-- The descriptor of channel c ends: its completion item enters the completion queue, for which it waits for room. The bytes of an OP 1
or 2 descriptor land with it. DESIGN CHOICE: log entry 70. -/
def dmaEnd (d : Dev) (c : Nat) : Dev :=
  let d := dmaChan d c
  match jobOf d c with
  | none => d
  | some j =>
    let ring := j.status = 0 ∨ j.status = 4
    if ring ∧ j.op % 3 = 0 ∧ j.moved < j.count then d
    else if d.tuber.retraining then d
    else if qRoom d (dmaF d c 7) = 0 then fullWait d (dmaF d c 7)
    else
      let x := dmaMove d j
      qFill (setJob x.1 c none) (dmaF d c 7) (dmaItem x.2)

/-- DMA_DESCRIPTOR and DMA_COMPLETION. -/
def execDmaDescriptor (c : Nat) (errs : List (Nat × Bool)) (s : State) : Out := onAwake (fun d => dmaTake d c errs) s
def execDmaCompletion (c : Nat) (s : State) : Out := onAwake (fun d => dmaEnd d c) s

/-- Training of channel c ends: it runs, or has failed (R363), which is a free value, and MR4 is read. DESIGN CHOICE: log
entry 37. -/
def trainChan (d : Dev) (c : Nat) : Dev :=
  let k := takeFree d
  readMr4 (oSet k.2 (0x6850 + c) 0x01 (if Config.freeNat k.1 % 2 = 0 then 1 else 3)) c

/-- LPDDR5_RETRAIN_DONE (R334). -/
def execLpddr5RetrainDone (s : State) : Out :=
  onAwake (fun d =>
    if d.tuber.retraining then
      let d := trainChan (trainChan d 0) 1
      dmaPump { d with tuber := { d.tuber with retraining := false } }
    else d) s

/-- A switch changes DATA_RATE: both channels retrain. -/
def startRetrain (d : Dev) : Dev :=
  let d := oSet (oSet d 0x6850 0x01 0) 0x6851 0x01 0
  { d with tuber := { d.tuber with retraining := true } }

/-! ### Moves (R357-R359) -/

/-- MOVE_STATE. -/
def moveState (d : Dev) : Nat := oGet d 0x6830 0x04
def setMove (d : Dev) (st : Nat) : Dev := oSet d 0x6830 0x04 st

/-- A move is in progress. -/
def moving (d : Dev) : Bool := 1 ≤ moveState d && moveState d ≤ 3

/-- RELOC_GO: the answer's code and the state. Bytes of a disabled region with USERS above 0 at the destination do not stop it (R342,
R357). DESIGN CHOICE: log entry 70. -/
def relocGo (d : Dev) : Nat × Dev :=
  let r := oGet d 0x6830 0x01
  let dest := oGet d 0x6830 0x02
  let v := d.ver.active
  let n := rgnBytes v r
  if moving d ∨ d.ver.stage ≠ .idle then (7, d)
  else if rgn v r 0x01 = 0 ∨ regionState d r ≠ 1 ∨ dest % 64 ≠ 0 ∨ capacity d < dest + n ∨
      (enabledRegions v).any (inRegion d dest n) ∨ vGet v 0x6820 0x05 = 0 then (4, d)
  else
    let d := oSet (oSet (oSet (setMove d 1) 0x6830 0x05 r) 0x6830 0x06 (rgn v r 0x02)) 0x6830 0x07 0
    (0, { d with tuber := { d.tuber with moveTo := dest, switched := false } })

/-- Bytes of the moved region. -/
def moveBytes (d : Dev) : Nat := rgnBytes d.ver.active (oGet d 0x6830 0x05)

/-- The copy ends. -/
def execMoveCopyDone (errs : List (Nat × Bool)) (s : State) : Out :=
  onAwake (fun d =>
    if moveState d = 1 then
      let x := tuberRead (badOf errs) (moveBytes d) (oGet d 0x6830 0x06) (tuberErrs d errs)
      oSet (setMove (tuberWrite x.2 d.tuber.moveTo x.1) 2) 0x6830 0x07 0
    else d) s

/-- The read-back ends. -/
def execMoveVerifyDone (errs : List (Nat × Bool)) (s : State) : Out :=
  onAwake (fun d =>
    if moveState d = 2 then
      let x := tuberRead (badOf errs) (moveBytes d) d.tuber.moveTo (tuberErrs d errs)
      let good := badOf errs = [] ∧ crc32c x.1 = rgn d.ver.active (oGet d 0x6830 0x05) 0x07
      oSet (setMove x.2 (if good then 3 else 5)) 0x6830 0x07 (moveBytes d)
    else d) s

/-- START of region r in a version that holds `old` becomes `dest`. -/
def moveStart (r old dest : Nat) (v : Version) : Version :=
  if rgn v r 0x02 = old then vSet v 0x6801 0x02 dest r else v

/-- A zone after the switch of a move. -/
def moveZone (r old dest : Nat) (z : Zone) : Zone := if z.region = r ∧ z.start = old then { z with start := dest } else z

/-- A voice after the switch. -/
def moveVoice (r old dest : Nat) (v : Voice) : Voice :=
  { v with oscs := v.oscs.map (fun o => { o with zone := o.zone.map (moveZone r old dest) }) }

/-- Boundary k: the switch of a move in state 3. VERIFY_STATE stays, since the bytes of the region are the same (R341).
DESIGN CHOICE: log entry 70. -/
def moveSwitch (d : Dev) (k : Nat) : Dev :=
  if moveState d = 3 ∧ d.tuber.switched = false then
    let r := oGet d 0x6830 0x05
    let old := oGet d 0x6830 0x06
    let dest := d.tuber.moveTo
    let d := { d with
      ver := { d.ver with
        active := moveStart r old dest d.ver.active
        previous := d.ver.previous.map (moveStart r old dest)
        staging := d.ver.staging.map (moveStart r old dest) }
      tuber := { d.tuber with
        switched := true
        streams := d.tuber.streams.map (fun x => { x with zone := moveZone r old dest x.zone }) }
      alloc := { d.alloc with
        slots := d.alloc.slots.map (fun x => (x.1, moveVoice r old dest x.2))
        lanes := d.alloc.lanes.map (fun x => (x.1, moveVoice r old dest x.2)) } }
    oSet d 0x6830 0x08 k
  else d

/-- The last fetch of the old range lands. -/
def execMoveDone (s : State) : Out :=
  onAwake (fun d => if moveState d = 3 ∧ d.tuber.switched then setMove d 4 else d) s

/-- RELOC_ABORT: before its switch a move is aborted. DEDUCED: log entry 44. -/
def relocAbort (d : Dev) : Dev := if moving d ∧ d.tuber.switched = false then setMove d 6 else d

end Sys2Proof.Machine
end

