-- ==== Sys2Proof/Machine/Checks.lean ====
section
/-!
DEFINITION. Sys2Proof/Machine/Checks.lean: the five checks of a COMMIT (04 R133) with the cross-object rules that
the subsystem chapters state, and the placement of heap items (13 R393). Codes: 4 OUT-OF-RANGE, 7 BUSY, 0x0A
OUT-OF-HORIZON, 0x0B COST-EXCEEDED, 0x0C BOOKING-EXCEEDED.
-/
namespace Sys2Proof.Machine

/-- Instances of a window object for which a version lists a field. -/
def instsOf (v : Version) (idx : Nat) : List Nat :=
  sortBy (fun a b => decide (a < b)) (((v.vals.filter (fun c => c.1 / 33554432 = idx)).map (fun c => c.1 % 131072)).eraseDups)

/-- No two elements of a list are equal. -/
def noDup : List Nat → Bool
  | [] => true
  | x :: r => !r.contains x && noDup r

/-- An object differs between two versions. -/
def differs (a b : Version) (idx sub : Nat) (inst : Nat := 0) : Bool := vGet a idx sub inst != vGet b idx sub inst

/-! ### Check 1 (02 R31) -/

/-- Rate, block length or WCLK_DIV changes while the media is not stopped. -/
def clockBusy (d : Dev) (v : Version) : Bool :=
  mediaState d != 0 && [0x01, 0x03, 0x04].any (fun s => differs d.ver.active v 0x2010 s)

/-! ### Check 2, by chapter -/

/-- Ranks and SV (04 R128, R133). -/
def ranksOk (v : Version) : Bool :=
  noDup ((rangeFrom 0 8).map (fun p => vGet v (0x1000 + p) 0x02)) &&
  (rangeFrom 0 8).any (fun p => bitOf (vGet v (0x1000 + p) 0x01) 4)

/-- Programs whose records differ between two versions. -/
def changedPrograms (a b : Version) : List Nat :=
  ((recPrograms a ++ recPrograms b).eraseDups).filter (fun p => recDiff a p != recDiff b p)

/-- Enabled parts of a version. -/
def enabledParts (v : Version) : List Nat := (rangeFrom 0 256).filter (fun p => vGet v (0x3000 + p) 0x01 = 1)

/-- Field of part p. -/
def vPart (v : Version) (p sub : Nat) : Nat := vGet v (0x3000 + p) sub

/-- A lower-zone and an upper-zone part share member channels (09 R276). -/
def zonesClash (v : Version) (p q : Nat) : Bool :=
  vPart v p 0x18 = 1 && vPart v q 0x18 = 2 && (vPart v p 0x03 &&& vPart v q 0x03) != 0 &&
  (vPart v p 0x04 == vPart v q 0x04 || vPart v p 0x04 == 255 || vPart v q 0x04 == 255) &&
  decide (14 < vPart v p 0x19 + vPart v q 0x19)

/-- The rules of 09 R276. -/
def partsOk (v : Version) : Bool :=
  let l := enabledParts v
  l.all (fun p =>
    vPart v p 0x06 % 256 ≤ vPart v p 0x06 / 256 && vPart v p 0x07 % 256 ≤ vPart v p 0x07 / 256 &&
    vPart v p 0x0E ≤ vPart v p 0x0D && (vPart v p 0x11 == 0 || vPart v p 0x18 == 0) &&
    l.all (fun q => !zonesClash v p q))

/-- ENGINE_RATE code and NP of a version. -/
def vRate (v : Version) : Nat := vGet v 0x2010 0x01
def vNp (v : Version) : Nat := if vGet v 0x4C10 0x02 = 1 then 36 else 32

/-- 10 R308. -/
def fadeOk (d : Dev) (v : Version) : Bool :=
  let b := budgetAt (vRate v) 0
  (!differs d.ver.active v 0x4C00 0x01 || decide (b * vGet v 0x4C00 0x01 / 100 ≤ b / 2)) &&
  (mediaState d == 0 || !differs d.ver.active v 0x4C10 0x02)

/-- 12 R334 and R340. -/
def tuberOk (d : Dev) (v : Version) : Bool :=
  (!differs d.ver.active v 0x6810 0x01 ||
    (mediaState d == 0 && d.tuber.jobs.all (fun c => c.2.isNone) && !moving d)) &&
  (enabledRegions v).all (fun r =>
    !entryBad d v r && !entryChanged d.ver.active v r &&
    (rgn d.ver.active r 0x01 == 1 || mget 0 d.tuber.verify r == 2))

/-- [a, a + n) lies in the user tables, or from the first address of a region up to a limit. -/
def openTo (a n lo top : Nat) : Bool := n == 0 || inUserTables a n || (lo ≤ a && a + n ≤ top)

/-- 13 R387, R389, R392 and 14 R427. -/
def gourdOk (d : Dev) (v : Version) : Bool :=
  let top := poolTop v
  (rangeFrom 0 20).all (fun n =>
    let x := 0x5003 + 32 * n
    let cl := vGet v x 0x19
    (rangeFrom 0 8).all (fun w =>
      let b := vGet v x (1 + 3 * w)
      let l := vGet v x (2 + 3 * w)
      b % 64 == 0 && l % 64 == 0 && decide (b + l ≤ 0x02000000) && openTo b l 0x00D20000 top) &&
    (cl == 0 || (vGet v x 0x1A != 255 && cl ≤ vGet v 0x6110 (0x10 + 2 * vGet v x 0x1A)))) &&
  (rangeFrom 0 8).all (fun c =>
    openTo (vGet v 0x6820 (0x14 + 8 * c)) (vGet v 0x6820 (0x15 + 8 * c)) 0x00D40000 top) &&
  (rangeFrom 0 64).all (fun e =>
    let x := vGet v 0x6100 (0x51 + e)
    bitsOf x 27 19 == 0 || decide (8 * bitsOf x 18 0 + 8 + 8184 * bitsOf x 27 19 ≤ 4096000)) &&
  (mediaState d == 0 || !(differs d.ver.active v 0x6820 0x01 || differs d.ver.active v 0x6820 0x03))

/-- Items of the user area in a version: key and bytes, save records first (13 R393). -/
def heapItems (v : Version) : List (Nat × Nat) :=
  ((instsOf v 0x5801).filter (fun t => vGet v 0x5801 0x02 t = 1)).map (fun t => (heapKey true t, 1024)) ++
  ((rangeFrom 0 32).filter (fun j => vGet v 0x6110 (0x10 + 2 * j) != 0)).map
    (fun j => (heapKey false j, vGet v 0x6110 (0x10 + 2 * j)))

/-- Items with their bases in a version. -/
def heapPlaced (v : Version) : List (Nat × Nat × Nat) :=
  (heapItems v).map (fun x => (x.1, x.2, (mfind v.heap x.1).getD 0))

/-- Lowest base from 0x00D4_0000 at which n bytes fit under a limit and meet no item taken: the start of the area or
the end of an item. -/
def lowestFit (taken : List (Nat × Nat × Nat)) (n limit : Nat) : Option Nat :=
  let ends := 0x00D40000 :: taken.map (fun t => ceilDiv (t.2.2 + t.2.1) 64 * 64)
  bestBy (fun a b => decide (a < b)) (ends.filter (fun a =>
    decide (a + n ≤ limit) && taken.all (fun t => !meets a n t.2.2 t.2.1)))

/-- The kept base of an item. -/
def keptBase (act : List (Nat × Nat × Nat)) (x : Nat × Nat) : Option Nat :=
  (act.find? (fun t => t.1 = x.1 && t.2.1 = x.2)).map (fun t => t.2.2)

/-- The new items in turn. -/
def placeNew (limit : Nat) : List (Nat × Nat) → List (Nat × Nat × Nat) → AMap Nat → Option (AMap Nat)
  | [], _, m => some m
  | x :: r, taken, m => match lowestFit taken x.2 limit with
    | none => none
    | some b => placeNew limit r ((x.1, x.2, b) :: taken) (mins m x.1 b)

/-- The placement of R393 with the two tops. -/
def placeHeap (act v : Version) (topNew topAct : Nat) : Option (AMap Nat) :=
  let a := heapPlaced act
  let items := heapItems v
  let kept := items.filterMap (fun x => (keptBase a x).map (fun b => (x.1, x.2, b)))
  if kept.any (fun t => topNew < t.2.2 + t.2.1) then none
  else placeNew (min topNew topAct) (items.filter (fun x => (keptBase a x).isNone)) a
    (kept.foldl (fun m t => mins m t.1 t.2.2) [])

/-- Sum of the depths in force of every queue of a version (16 R489). -/
def depthSum (v : Version) : Nat :=
  let kinds := 256 * vGet v 0x5F00 0x03 + 256 * 64 + vGet v 0x5F00 0x01 * vGet v 0x5F00 0x05 +
    (1536 - vGet v 0x5F00 0x01) * vGet v 0x5F00 0x06 + 2048 * vGet v 0x5F00 0x07
  let own := (instsOf v 0x5A01).filter (fun q => vGet v 0x5A01 0x02 q != 0)
  let dflt (q : Nat) : Nat := depthIn (vSet v 0x5A01 0x02 0 q) q
  kinds + (own.map (fun q => vGet v 0x5A01 0x02 q)).sum - (own.map dflt).sum

/-- VOICE_QUEUES, a DEPTH or a default depth differs. -/
def layoutChanged (a b : Version) : Bool :=
  [0x01, 0x03, 0x05, 0x06, 0x07].any (fun s => differs a b 0x5F00 s) ||
  ((instsOf a 0x5A01 ++ instsOf b 0x5A01).any (fun q => differs a b 0x5A01 0x02 q))

/-- FLOW_Q of a version. -/
def vFlow (v : Version) (f : Nat) : Nat := vGet v (0x5C00 + f) 0x01

/-- 16 R484; a disabled part's flow that still names the part's own queue is in order, as its default does. -/
def flowsOk (v : Version) : Bool :=
  (rangeFrom 0 256).all (fun f =>
    vFlow v f == f || (vPart v f 0x01 == 0 && (vFlow v f == 0xFFFF || 3 ≤ kindIn v (vFlow v f)))) &&
  noDup (((rangeFrom 0 256).map (vFlow v)).filter (fun q => q != 0xFFFF))

/-- Threads of a version, and those it enables. -/
def vThreads (v : Version) : List Nat := instsOf v 0x5801
def vOn (v : Version) : List Nat := (vThreads v).filter (fun t => vGet v 0x5801 0x01 t = 1)

/-- Channels of a thread's IN_CH and OUT_CH. -/
def vIn (v : Version) (t : Nat) : List Nat := ((rangeFrom 0x10 4).map (fun s => vGet v 0x5801 s t)).filter (fun c => c != 255)
def vOut (v : Version) (t : Nat) : List Nat := ((rangeFrom 0x14 8).map (fun s => vGet v 0x5801 s t)).filter (fun c => c != 255)

/-- Threads of a set that some thread of the set feeds, taken n times: what remains holds a cycle. -/
def feedCore (v : Version) : Nat → List Nat → List Nat
  | 0, l => l
  | n + 1, l => feedCore v n (l.filter (fun u => l.any (fun t => (vOut v t).any (fun c => (vIn v u).contains c))))

/-- Version v, after `old`, binds thread t to its core anew: it was bound to another, or not enabled. -/
def rebinds (old v : Version) (t : Nat) : Bool := differs old v 0x5801 0x03 t || vGet old 0x5801 0x01 t != 1

/-- The spare cores to which version v, after `old`, binds an enabled thread anew (22 R667). -/
def spareCores (d : Dev) (old v : Version) : List Nat :=
  (rangeFrom 0 20).filter (fun n => usable d (0x40 + n) && (vOn v).any (fun t => vGet v 0x5801 0x03 t == n && rebinds old v t))

/-- 16 R500. A thread may be bound anew to a spare core where a core is out of service (22 R667); one that merely stays bound to a
lost core fails the COMMIT, also once that core is a spare (R661). DEDUCED: log entry 65. -/
def stalkOk (d : Dev) (v : Version) : Bool :=
  let on := vOn v
  let audio := on.filter (fun t => vGet v 0x5801 0x02 t = 1)
  let spares := spareCores d d.ver.active v
  on.all (fun t => coreIn d (vGet v 0x5801 0x03 t) ||
    (rebinds d.ver.active v t && spares.contains (vGet v 0x5801 0x03 t))) &&
  (spares.isEmpty || decide (coresIn d + spares.length ≤ 16)) &&
  (rangeFrom 0 20).all (fun n => (on.filter (fun t => vGet v 0x5801 0x03 t = n)).length ≤ 16) &&
  decide ((on.filter (fun t => vGet v 0x5801 0x06 t = 1)).length ≤ 32) &&
  (vThreads v).all (fun t =>
    decide (vGet v 0x5801 0x08 t + vGet v 0x5801 0x09 t ≤ 1024) && decide (vGet v 0x5801 0x0A t + vGet v 0x5801 0x0B t ≤ 4096) &&
    noDup (vIn v t) && noDup (vOut v t) && (vGet v 0x5801 0x02 t == 1 || (vIn v t == [] && vOut v t == []))) &&
  (feedCore v audio.length audio).isEmpty && flowsOk v &&
  vNp v * slotsOf (vRate v) ≤ vGet v 0x5F00 0x01 && decide (depthSum v ≤ 131072) &&
  (mediaState d == 0 || !layoutChanged d.ver.active v)

/-- Field of Link port l. -/
def vLink (v : Version) (l sub : Nat) : Nat := vGet v (linkIdx l) sub

/-- SLOT_MAP entry e of a port fits R548 and R550: mode, own node, nodes. -/
def entryOk (v : Version) (l e : Nat) : Bool :=
  let chain := vLink v l 0x02 == 1
  let n := vLink v l 0x04
  slKind e != 3 && bitsOf e 3 2 == 0 && !bitOf e 11 && (slKind e == 2 || slStream e == 0) &&
  (chain || e / 256 == 0) && (!bitOf e 15 || slKind e == 2) &&
  (!chain || (decide (slOwner e < n) && decide (slDest e < n) && slOwner e != slDest e &&
    (slOwner e == vLink v l 0x03 || slStream e == 0)))

/-- Slots of KIND 2 and stream s that the device transmits on port l. -/
def isoSlots (v : Version) (l s : Nat) : Nat :=
  ((rangeFrom 0 960).filter (fun k => let e := slotEntry v l k
    slKind e = 2 && slStream e = s && (vLink v l 0x02 = 0 || slOwner e = vLink v l 0x03))).length

/-- Nodes to which a node owns a message slot, as pairs. -/
def msgPairs (v : Version) (l : Nat) : List (Nat × Nat) :=
  (((rangeFrom 0 960).map (slotEntry v l)).filter (fun e => slKind e = 1)).map (fun e => (slOwner e, slDest e))

/-- Channels of an OSTREAM or ISTREAM overlap. -/
def streamsMeet (a b : Nat) : Bool := meets (stFirst a) (stCount a) (stFirst b) (stCount b)

/-- 17 R550 for port l, its rings aside; SRC_NODE is 0 in point-to-point mode (R547, 04 R738). -/
def linkOk (v : Version) (l : Nat) : Bool :=
  let chain := vLink v l 0x02 == 1
  let own := vLink v l 0x03
  let os := (rangeFrom 0 16).filter (fun s => stOn (vLink v l (0x20 + s)))
  (!chain || decide (own < vLink v l 0x04)) &&
  (chain || (rangeFrom 0 16).all (fun s => stSrc (vLink v l (0x30 + s)) == 0)) &&
  (rangeFrom 0 960).all (fun k => entryOk v l (slotEntry v l k)) &&
  (rangeFrom 0 480).all (fun j => !(slKind (slotEntry v l (2 * j)) == 2 && slKind (slotEntry v l (2 * j + 1)) == 2)) &&
  os.all (fun s =>
    let x := vLink v l (0x20 + s)
    decide (stFirst x + stCount x ≤ 64) &&
    os.all (fun t => t == s || !streamsMeet x (vLink v l (0x20 + t))) &&
    decide (ceilDiv ((ceilDiv (rateHz (vRate v)) 8000 + 1) * stCount x) 16 ≤ isoSlots v l s)) &&
  (!chain || (let ps := (msgPairs v l).eraseDups
    ps.all (fun p => p.2 != own || ps.contains (own, p.1))))

/-- Field of serial audio port n. -/
def vSap (v : Version) (n sub : Nat) : Nat := vGet v (sapIdx n) sub

/-- 18 R569 for port n, its rings' kinds aside. DEDUCED: log entry 46. -/
def sapOk (v : Version) (n : Nat) : Bool :=
  let slots := vSap v n 0x04
  let fmt := vSap v n 0x03
  let bits := rateHz (vRate v) * slots * vSap v n 0x05
  let inM := vSap v n 0x08
  let outM := vSap v n 0x09
  let slave := vSap v n 0x02 == 0 && vGet v 0x2010 0x02 != 2 + n
  vSap v n 0x01 == 0 ||
  ((2 ≤ fmt || slots == 2) &&
  (rangeFrom 0 16).all (fun i => decide (i < slots) || !(bitOf inM i || bitOf inM (16 + i) || bitOf outM i || bitOf outM (16 + i))) &&
  (2 ≤ fmt || vSap v n 0x07 % 4 == 0) &&
  (vSap v n 0x02 == 0 || (fineHz (vRate v) % bits == 0 && decide (bits ≤ 24576000))) &&
  !(slave && (outM != 0 || (vGet v (0x7100 + n) 0x01 == 0 && inM != 0))) &&
  (inM == 0 || vSap v n 0x0A != 0xFFFF) && (vSap v n 0x0B == 0 || outM == 0 || vSap v n 0x0C != 0xFFFF))

/-- Field of timer n. -/
def vTc (v : Version) (n sub : Nat) : Nat := vGet v (0x7C00 + n) sub

/-- Timer n produces compare matches. -/
def tcMatches (v : Version) (n : Nat) : Bool :=
  vTc v n 0x01 = 1 && 1 ≤ vTc v n 0x02 && vTc v n 0x02 ≤ 12 && vTc v n 0x07 = 1

/-- 19 R596, 20 R619 but its rings, 23 R710. DEDUCED: log entry 47. -/
def boardOk (v : Version) : Bool :=
  (vGet v 0x7420 0x02 != 2 || tcMatches v (vGet v 0x7420 0x03)) &&
  (vGet v 0x7800 0x0C == 0 || vGet v 0x7800 0x02 % 8 == 0) &&
  (rangeFrom 0 256).all (fun s =>
    let f (x : Nat) : Nat := vGet v (0x7900 + s) x
    (f 0x06 == 0 || decide (f 0x08 < f 0x09)) && decide (f 0x0A < f 0x08)) &&
  (let p (x : Nat) : Nat := vGet v 0x8220 x
   decide (p 0x05 ≤ p 0x06) && decide (p 0x05 ≤ p 0x07) && decide (p 0x07 ≤ p 0x06) && decide (p 0x05 ≤ p 0x0E) &&
   decide (p 0x0E ≤ p 0x06) && decide (p 0x01 < p 0x02))

/-- Field of UART n. -/
def vUart (v : Version) (n sub : Nat) : Nat := vGet v (0x7E00 + n) sub

/-- 21 R647 for UART n, its rings' kinds aside. -/
def uartOk (v : Version) (n : Nat) : Bool :=
  let m := vUart v n 0x01
  let x := vUart v n 0x08
  let y := vUart v n 0x09
  (m != 2 || ((vUart v n 0x04 != 9 || vUart v n 0x05 == 0) && vUart v n 0x0A != 0xFFFF)) &&
  (m != 3 || vUart v n 0x04 == 8) && (m != 1 || vUart v n 0x0A == 0xFFFF) &&
  (vUart v n 0x07 == 0 || (x != y && (m != 3 || !([0x7D, 0x7E].contains x || [0x7D, 0x7E].contains y)))) &&
  (vUart v n 0x0D == 0 || vUart v n 0x02 ≤ 115200) && (vUart v n 0x0E != 1 || vUart v n 0x04 == 9)

/-- 21 R647 for the timers. -/
def timersOk (d : Dev) (v : Version) : Bool :=
  let on := (rangeFrom 0 16).filter (fun n => vTc v n 0x01 = 1)
  on.all (fun n => vTc v n 0x02 != 13 || (n != 0 && mediaState d == 0)) &&
  noDup ((on.map (fun n => vTc v n 0x08)).filter (fun p => p != 255))

/-- Rings that a version names, once per place (17 R550, 18 R569, 20 R619, 21 R647), with those of the serial audio ports that a
test takes. -/
def ringsOf (v : Version) (sap : Nat → Bool) : List Nat :=
  ((rangeFrom 0 4).flatMap (fun l =>
      (((rangeFrom 0 16).map (fun s => vLink v l (0x30 + s))).filter stOn).map stRing ++
      (rangeFrom 0x18 3).map (vLink v l)) ++
   ((rangeFrom 0 4).filter sap).flatMap (fun n => [vSap v n 0x0A, vSap v n 0x0C]) ++ [vGet v 0x7800 0x03, vGet v 0x7800 0x04] ++
   (rangeFrom 0 16).map (fun n => vTc v n 0x10) ++
   (rangeFrom 0 4).flatMap (fun n => [vUart v n 0x0A, vUart v n 0x0B])).filter (fun q => q != 0xFFFF)

/-- Rings are I/O rings, and no queue is named twice. 18 R569 tests the kind for the serial audio ports that are enabled, and 21 R647
takes the rings of all ports. -/
def ringsOk (v : Version) : Bool :=
  let l := ringsOf v (fun n => vSap v n 0x01 == 1)
  let all := ringsOf v (fun _ => true)
  l.all (fun q => kindIn v q == 3) && noDup all

/-- Check 2. -/
def crossOk (d : Dev) (v : Version) : Bool :=
  ranksOk v && (changedPrograms d.ver.active v).all (fun p => recordOk (recDiff v p)) && partsOk v && fadeOk d v &&
  tuberOk d v && gourdOk d v && (placeHeap d.ver.active v 0x01A18000 0x01A18000).isSome && stalkOk d v &&
  (rangeFrom 0 4).all (linkOk v) && (rangeFrom 0 4).all (sapOk v) && boardOk v && (rangeFrom 0 4).all (uartOk v) &&
  timersOk d v && ringsOk v

/-! ### Checks 3 to 5 -/

/-- Check 3: the requested SIX lies beyond the horizon. -/
def beyondHorizon (d : Dev) (req : Nat) : Bool := mediaRuns d && decide (sixNow d + horizon d < req)

/-- Regions whose FORMAT differs between two versions. -/
def reformatted (a b : Version) : List Nat :=
  ((instsOf a 0x6801 ++ instsOf b 0x6801).eraseDups).filter (fun r => differs a b 0x6801 0x04 r)

/-- Programs whose cost a COMMIT compiles (09 R260). -/
def toCompile (a v : Version) : List Nat :=
  let fm := reformatted a v
  let all := recPrograms v
  (changedPrograms a v ++ all.filter (fun p => differs a v 0x2010 0x01 ||
    (let b := recDiff v p
     (rangeFrom 0 4).any (fun x => oscMode b x = 4 && (zoneRegions b x).any fm.contains)))).eraseDups

/-- Staging with every cost compiled. DEDUCED: log entry 55. -/
def compileCosts (a v : Version) : Version := (toCompile a v).foldl putCost v

/-- Check 4 on a compiled version (09 R261, R262). DEDUCED: log entry 55. -/
def costsOk (a v : Version) : Bool :=
  let b := budgetAt (vRate v) 0
  let l := enabledParts v
  (toCompile a v).all (fun p => costOf v p ≤ b / 4) &&
  decide ((l.map (fun p => vPart v p 0x0E)).sum ≤ vNp v * slotsOf (vRate v)) &&
  decide ((l.map (fun p => vPart v p 0x0E * costOf v (vPart v p 0x02))).sum ≤ vNp v * b)

/-- A fill is needed that the active RELOC_RATE of 0 cannot make (12 R346). -/
def fillStuck (d : Dev) (v : Version) : Bool := rs d 0x6820 0x05 == 0 && !(headsToFill d v).isEmpty

/-- The checks of a COMMIT of the staging version v with REQ_SIX: the version with its costs and heap, or the code. -/
def commitChecks (d : Dev) (v : Version) (req : Nat) : Nat ⊕ Version :=
  if clockBusy d v then .inl 7
  else if !crossOk d v then .inl 4
  else if beyondHorizon d req then .inl 0x0A
  else
    let c := compileCosts d.ver.active v
    if !costsOk d.ver.active c then .inl 0x0B
    else if bookLimit c < bookedOf c ∨ 13467648 < vGet c 0x6820 0x01 * vGet c 0x6820 0x03 * 1024 ∨ fillStuck d c ∨ 4194304 < headsNeeded d c then .inl 0x0C
    else match placeHeap d.ver.active c (poolTop c) (userTop d) with
      | none => .inl 0x0C
      | some h => .inr { c with heap := h }

/-- A REVERT to version v would change a queue layout, which changes only at MEDIA_STATE 0 (16 R489). -/
def layoutBusy (d : Dev) (v : Version) : Bool := mediaState d != 0 && layoutChanged d.ver.active v

/-- The checks of a REVERT to version v (R134): the code, 0 when it passes. Check 2 is not repeated, so a REVERT may change while
the media runs what a COMMIT may not (12 R334, 13 R392), but not a queue layout (16 R489). DESIGN CHOICE: log entry 63. -/
def revertChecks (d : Dev) (v : Version) (req : Nat) : Nat :=
  if clockBusy d v || layoutBusy d v then 7
  else if beyondHorizon d req then 0x0A
  else if fillStuck d v then 0x0C
  else 0

end Sys2Proof.Machine
end

