-- ==== Sys2Proof/Machine/Media.lean ====
section
/-!
DEFINITION. Sys2Proof/Machine/Media.lean: the media's reference and its start (02 R43-R52), Link time (R53, R54), the
mark of the digest (03 R93), the loss of a serial port's clocks (18 R562).
-/
namespace Sys2Proof.Machine

/-! ### VDD_CORE outside running (23 R692) -/

/-- VDD_IDLE is requested and d_s is 0 while MEDIA_STATE is 0. -/
def idleVdd (d : Dev) : Dev :=
  let d := requestVdd (oSet d 0x8220 0x08 0) (rs d 0x8220 0x07)
  { d with ctl := { d.ctl with hold := none } }

/-! ### References (R48-R52) -/

/-- Set MEDIA_STATE, MEDIA_LOCK, SRC_ACTIVE. -/
def setMedia (d : Dev) (st : Nat) : Dev := oSet d 0x2000 0x02 st
def setLock (d : Dev) (v : Nat) : Dev := oSet d 0x2020 0x0A v
def setSource (d : Dev) (v : Nat) : Dev := oSet d 0x2020 0x0B v

/-- SRC_ACTIVE and MEDIA_SRC. -/
def srcActive (d : Dev) : Nat := oGet d 0x2020 0x0B
def mediaSrc (d : Dev) : Nat := rs d 0x2010 0x02

/-- MEDIA_RUN := 1 while stopped (R43, 23 R692). -/
def mediaStart (d : Dev) : Dev :=
  let d := setSource (setLock (setMedia d 1) 0) (mediaSrc d)
  requestVdd { d with media := { d.media with timedOut := false } } (rs d 0x8220 0x06)

/-- A switch is accepted and has not happened. -/
def switchPending (d : Dev) : Bool := d.ver.stage == .commitPending || d.ver.stage == .revertPending

/-- MEDIA_RUN := v (R43, R44, R46). A switch taken at MEDIA_STATE 0 that still waits for its answer happens at MEDIA_STATE 0 (R31): a
start waits for it. DEDUCED: log entry 68. A 1 while a stop is under way starts nothing, then or later.
DESIGN CHOICE: log entry 58. -/
def mediaRun (d : Dev) (v : Nat) : Dev :=
  let st := mediaState d
  let d := oSet d 0x2000 0x01 v
  if v = 1 then
    if st = 0 then (if switchPending d then { d with ver := { d.ver with startAfter := true } } else mediaStart d) else d
  else if st = 1 then idleVdd (setMedia d 0)
  else if 2 ≤ st ∧ d.media.stopM = none then { d with media := { d.media with stopReq := true } }
  else if d.ver.startAfter then { d with ver := { d.ver with startAfter := false } }
  else d

/-- The reference in use is lost (R51). -/
def refLoss (d : Dev) : Dev :=
  if mediaState d = 2 ∧ srcActive d ≠ 0 then remind (bump (setLock (setMedia d 3) 0) 0x2020 0x09) 0x2000 0x02 else d

/-- The synthesiser turns to a reference while the media runs (R50, R52). The crystal ends a holdover, and another
reference leaves it until REFERENCE_RETURN. RATE is nominal with code 6 (R56). DESIGN CHOICE: log entry 58. -/
def turnTo (d : Dev) (src : Nat) : Dev :=
  let d := setLock (setSource d src) 0
  let d := if src = 6 then oSet d 0x2020 0x05 (nominalRate (rs d 0x2010 0x01)) else d
  if mediaState d = 3 ∧ src = 0 then setMedia d 2 else d

/-- REF_RESELECT (R52). -/
def reselect (d : Dev) : Dev :=
  if srcActive d = mediaSrc d then d
  else if mediaRuns d then turnTo d (mediaSrc d)
  else if mediaState d = 1 then
    let d := setSource d (mediaSrc d)
    { d with media := { d.media with timedOut := false } }
  else d

/-- A switch changes MEDIA_SRC (R50); a start under way turns to the new reference and its timeout begins again.
DESIGN CHOICE: log entry 58. -/
def switchSource (d : Dev) : Dev :=
  if mediaRuns d then turnTo d (mediaSrc d)
  else if mediaState d = 1 then
    let d := setSource d (mediaSrc d)
    { d with media := { d.media with timedOut := false } }
  else d

/-- LOCK_TIMEOUT during a start (R44). DEDUCED: log entry 32. -/
def execLockTimeout (s : State) : Out :=
  onAwake (fun d =>
    if mediaState d = 1 ∧ mediaSrc d ≠ 0 ∧ srcActive d = mediaSrc d ∧ d.media.timedOut = false then
      let d := remind (bump { d with media := { d.media with timedOut := true } } 0x2020 0x09) 0x2000 0x02
      if rs d 0x2010 0x05 = 1 then setSource d 0 else d
    else d) s

/-- REFERENCE_LOSS. -/
def execReferenceLoss (s : State) : Out := onAwake refLoss s

/-- REFERENCE_RETURN: holdover ends (R52). -/
def execReferenceReturn (s : State) : Out := onAwake (fun d => if mediaState d = 3 then setMedia d 2 else d) s

/-- REF_FALLBACK_SWITCH: 8 ms of holdover have passed (R52). -/
def execRefFallbackSwitch (s : State) : Out :=
  onAwake (fun d => if mediaState d = 3 ∧ rs d 0x2010 0x05 = 1 then turnTo d 0 else d) s

/-- SAP_CLOCK_LOSS of slave port n (18 R560, R562). -/
def execSapClockLoss (n : Nat) (s : State) : Out :=
  onAwake (fun d =>
    if n < 4 ∧ sapOn d n ∧ sapMaster d n = false ∧ sapState d n = 2 then
      let d := setAsrc (setSapState d n 1) n 0
      if srcActive d = 2 + n then refLoss d else d
    else d) s

/-! ### Link time (R53, R54) -/

/-- A write of LINK_TIME_SET is refused while a partner is the time master. -/
def linkTimeBusy (d : Dev) : Bool := rs d 0x2010 0x07 != 0

/-! ### The mark (03 R93) -/

/-- DIGEST_MARK := n: whether it is accepted, and the state. -/
def digestMark (d : Dev) (n : Nat) : Bool × Dev :=
  if mediaRuns d ∧ n ≤ oGet d 0x0100 0x02 then (false, d)
  else (true, oSet (oSet d 0x0100 0x03 n) 0x0100 0x05 1)

end Sys2Proof.Machine
end

