-- ==== Sys2Proof/Machine/Power.lean ====
section
/-!
DEFINITION. Sys2Proof/Machine/Power.lean: resets and start-up (23 R675-R685), sleep and wake (R686-R690), the slack
controller (R691-R694), the thermal monitor (R695-R699), the TAP (R703-R705).
-/
namespace Sys2Proof.Machine

/-! ### Resets (R679-R682) -/

/-- Precedence of a reset kind, highest first: power-on, supply monitor, cold, warm. -/
def resetRank (k : Nat) : Nat := nth 0 [0, 2, 3, 1] k

/-- The one of two reset kinds that has precedence (R680). -/
def resetFirst (j k : Nat) : Nat := if resetRank j ≤ resetRank k then j else k

/-- The kind as which a reset of kind k proceeds (R680), with the reset that is held or the accepted one whose answer still leaves.
DEDUCED: log entry 11. -/
def resetKind (x : Power) (k : Nat) : Nat := match x.phase with
  | .held j => resetFirst j k
  | .awake => (x.resetReq.map (resetFirst · k)).getD k
  | .stopped | .asleep => k

/-- LPDDR5 contents are kept by a warm reset with RETAIN 1 (12 R360). DESIGN CHOICE: log entry 3. -/
def resetKeeps (d : Dev) (k : Nat) : Bool := k == 2 && (match d.power.phase with
  | .held _ | .stopped => d.power.kept
  | .awake | .asleep => rs d 0x6840 0x01 == 1)

/-- A reset cause of kind k: everything takes its default but the TAP, the level of CLRCV, where kept, LPDDR5, and MON_FLAGS of a
supply-monitor reset that is still under way (R678, R680). DESIGN CHOICE: log entries 8, 11. -/
def resetDev (d : Dev) (k : Nat) : Dev :=
  let k := resetKind d.power k
  let keep := resetKeeps d k
  let r := { Dev.reset with
    free := d.free, tap := d.tap
    analog := { Dev.reset.analog with clrPin := d.analog.clrPin }
    tuber := { Dev.reset.tuber with mem := if keep then d.tuber.mem else [] }
    power := ⟨.held k, none, false, [], keep, 0⟩ }
  let r := oSet r 0x0010 0x04 k
  if d.power.phase = .held 3 ∧ k = 3 then oSet r 0x8230 0x08 (oGet d 0x8230 0x08) else r

/-- POWER_ON, SUPPLY_MONITOR_RESET by a rail, COLD_RESET, WARM_RESET. -/
def execPowerOn (s : State) : Out := onDev (fun d => resetDev d 0) s
def execSupplyMonitorReset (rail : Nat) (s : State) : Out :=
  onDev (fun d => oSet (resetDev d 3) 0x8230 0x08 (2 ^ (rail % 8))) s
def execColdReset (s : State) : Out := onDev (fun d => resetDev d 1) s
def execWarmReset (s : State) : Out := onDev (fun d => resetDev d 2) s

/-! ### Start-up (R683-R685) -/

/-- The ports that begin at the end of start-up: U0's session, Link training (R683 step 5). -/
def startPorts (d : Dev) : Dev :=
  let d := (rangeFrom 0 4).foldl (fun d n => if uMode d n = 3 then beginSession d (4 + n) else d) d
  (rangeFrom 0 4).foldl (fun d l => if lf d l 0x01 = 1 ∧ linkState d l = 0 then startTraining d l else d) d

/-- START_US: a free value within the limits of R684. -/
def startUs (d : Dev) (warm : Bool) : Dev :=
  let x := takeFree d
  oSet x.2 0x8230 0x07 ((if warm then 11000 else 19000) + Config.freeNat x.1 % 2001)

/-- Start-up completes; `lost` channels of LPDDR5 failed to train. DESIGN CHOICE: log entry 11. -/
def startUp (d : Dev) (k : Nat) (lost : Nat → Bool) : Dev :=
  let d := { d with power := { d.power with phase := .awake } }
  let d := oSet d 0xF000 0x01 1
  let d := (rangeFrom 0 2).foldl (fun d c => readMr4 (oSet d (0x6850 + c) 0x01 (if lost c then 3 else 1)) c) d
  let d := startUs d (k == 2)
  let d := if d.power.kept then
      let x := takeFree d
      oSet (oSet x.2 0x6840 0x02 1) 0x6840 0x03 (Config.freeNat x.1 % 2 ^ 32)
    else d
  startPorts (idleVdd d)

/-- RESET_RELEASE: whether the fuse check passes, and which LPDDR5 channels train. DESIGN CHOICE: log entry 11. -/
def execResetRelease (fuses train0 train1 : Bool) (s : State) : Out :=
  onDev (fun d => match d.power.phase with
    | .held k =>
      if fuses then startUp d k (fun c => if c = 0 then !train0 else !train1)
      else oSet { d with power := { d.power with phase := .stopped } } 0xF000 0x01 0
    | .stopped | .awake | .asleep => d) s

/-! ### Sleep (R686-R690) -/

/-- A SLEEP write is answered BUSY (R686). -/
def sleepBusy (d : Dev) : Bool :=
  mediaState d != 0 || d.tuber.jobs.any (fun x => x.2.isSome) || moving d || d.tuber.verifying.isSome

/-- Port l enters electrical idle. -/
def idleLink (d : Dev) (l : Nat) : Dev :=
  if linkUp d l ∨ linkState d l = 6 then leaveLink d l 0 else if linkState d l = 1 then setLinkState d l 0 else d

/-- Entry into sleep (R687); the CV outputs take their disabled state, CLEAR_CODE (19 R588). DESIGN CHOICE: log entry 12. -/
def enterSleep (d : Dev) : Dev :=
  let was := pathState d
  let d := (rangeFrom 0 4).foldl idleLink d
  let d := (rangeFrom 0 4).foldl (fun d n => modUart d n (fun u => { u with sending := none })) d
  let d := (rangeFrom 0 4).foldl (fun d n => if sapOn d n then sapDisable d n else d) d
  let d := parkCv d
  let d := (rangeFrom 0 2).foldl (fun d c => if oGet d (0x6850 + c) 0x01 = 1 then oSet d (0x6850 + c) 0x01 2 else d) d
  let d := bump { d with power := { d.power with phase := .asleep, sleepReq := false, askers := [] } } 0x8230 0x05
  requestVdd (pathChange was d) (rs d 0x8220 0x05)

/-- Wake by a source of R689; UARTs take their buffered characters after it (R690). The time asleep is a free value.
DESIGN CHOICE: log entry 12. -/
def wakeUp (d : Dev) (cause : Nat) : Dev :=
  if asleep d then
    let was := pathState d
    let d := { d with power := { d.power with phase := .awake } }
    let y := takeFree d
    let us := Config.freeNat y.1
    let d := { y.2 with power := { y.2.power with sleptUs := y.2.power.sleptUs + us } }
    let d := oSet (oSet d 0x8230 0x04 cause) 0x8230 0x06 (us / 1000 % 2 ^ 32)
    let d := (rangeFrom 0 2).foldl (fun d c => if oGet d (0x6850 + c) 0x01 = 2 then readMr4 (oSet d (0x6850 + c) 0x01 1) c else d) d
    let d := (rangeFrom 0 4).foldl (fun d n => if sapOn d n then sapEnable d n 0 else d) d
    let d := (rangeFrom 0 4).foldl (fun d l => if lf d l 0x01 = 1 ∧ linkState d l = 0 then startTraining d l else d) d
    (rangeFrom 0 4).foldl (fun d n => txPump d n) (idleVdd (pathChange was d))
  else d

/-! ### The slack controller (R691-R694) -/

/-- VDD_REQ. -/
def vddReq (d : Dev) : Nat := oGet d 0x8220 0x03

/-- DS. -/
def dSlack (d : Dev) : Nat := oGet d 0x8220 0x08

/-- SLACK_WORST is below SLACK_LOW: voltage, then budget. -/
def slackLow (d : Dev) (k : Nat) (s : Int) : Dev :=
  let low := sgn 16 (rs d 0x8220 0x01)
  let step := if s < 0 then 25 else if 2 * s < low then 15 else 5
  let req := min (vddReq d + step) (rs d 0x8220 0x06)
  let d := requestVdd d req
  let run := if req = rs d 0x8220 0x06 then d.ctl.lowRun + 1 else 0
  let d := { d with ctl := { d.ctl with lastV := k, lowRun := run } }
  if 32 ≤ run ∧ 32 ≤ (k : Int) - d.ctl.lastDs ∧ dSlack d < rs d 0x8220 0x09 then
    { oSet d 0x8220 0x08 (dSlack d + 1) with ctl := { d.ctl with lastDs := k, lowRun := 0 } }
  else d

/-- SLACK_WORST is not below SLACK_LOW: budget, then voltage. -/
def slackHigh (d : Dev) (k : Nat) : Dev :=
  let d := { d with ctl := { d.ctl with lowRun := 0 } }
  let high := sgn 16 (rs d 0x8220 0x02)
  if d.ctl.hist.length = 32 ∧ d.ctl.hist.all (fun x => decide (high < x)) then
    if 0 < dSlack d ∧ 32 ≤ (k : Int) - d.ctl.lastDs then
      { oSet d 0x8220 0x08 (dSlack d - 1) with ctl := { d.ctl with lastDs := k } }
    else if dSlack d = 0 ∧ 32 ≤ (k : Int) - d.ctl.lastV ∧ rs d 0x8220 0x05 < vddReq d then
      { requestVdd d (vddReq d - 5) with ctl := { d.ctl with lastV := k } }
    else d
  else d

/-- A takeover's 880 mV still holds at boundary k: that of one without a seal yet, or until the window after it (22 R655). -/
def vddHeld (d : Dev) (k : Nat) : Bool := !d.spares.taking.isEmpty || d.ctl.hold.any (fun w => decide (k ≤ w))

/-- SLACK_WORST as a number. -/
def slackWorst (d : Dev) : Int := sgn 16 (oGet d 0x2040 0x01)

/-- The decision at boundary k ≥ 1 on window k − 1 (R691, R693); the window before may have been corrected since.
DEDUCED: log entry 37. -/
def slackControl (d : Dev) (k : Nat) : Dev :=
  let fixed := match d.ctl.hist with
    | _ :: r => slackWorst d :: r
    | [] => []
  let d := showSlack { d with ctl := { d.ctl with hist := fixed } } (k - 1)
  let s := slackWorst d
  let d := { d with ctl := { d.ctl with
    hist := (s :: d.ctl.hist).take 32, slack := d.ctl.slack.filter (fun c => k ≤ c.1 / 256 + 2) } }
  if vddHeld d k then d
  else
    let d := { d with ctl := { d.ctl with hold := none } }
    if rs d 0x8220 0x0D = 1 then requestVdd d (rs d 0x8220 0x0E)
    else if s < sgn 16 (rs d 0x8220 0x01) then slackLow d k s else slackHigh d k

/-- Boundary 0 (R693). -/
def slackStart (d : Dev) : Dev := { d with ctl := ⟨0, -32, -32, [], none, []⟩ }

/-- A voltage request may have its answer: awake, asleep after the entry's request, and in a reset that requests 0.80 V at its
entry (R682, R687). -/
def avsAnswers (d : Dev) : Bool := match d.power.phase with
  | .awake | .asleep => true
  | .held k => k == 1 || k == 2
  | .stopped => false

/-- AVS_READBACK: whether the write was acknowledged, and the voltage read back (R694). DEDUCED: log entry 36. -/
def execAvsReadback (ack : Bool) (mv : Nat) (s : State) : Out :=
  onDev (fun d =>
    if avsAnswers d = false then d else
    let fail (d : Dev) (detail : Nat) : Dev := bump (addFault d 0x0C 0xE8 0 0xFF 0 detail (vddReq d)) 0x8220 0x0C
    if ack then
      let d := oSet d 0x8220 0x04 (mv % 65536)
      if vddReq d + 15 < mv ∨ mv + 15 < vddReq d then fail d 1 else d
    else fail d 0) s

/-! ### The thermal monitor (R695-R699) -/

/-- The level i that a temperature in 1/16 °C reaches against rising thresholds less `down` °C. -/
def thermLevel (t : Int) (down : Int) : Nat :=
  if (108 - down) * 16 ≤ t then 3 else if (100 - down) * 16 ≤ t then 2 else if (95 - down) * 16 ≤ t then 1 else 0

/-- S_q after an evaluation, before the dwell rule. -/
def thermTarget (t : Int) (st : Nat) : Nat := max (thermLevel t 0) (min st (thermLevel t 4))

/-- The hottest quadrant: highest S_q, then highest TEMP_q, then lowest q. -/
def hottest (ss : List Nat) (ts : List Int) : Nat :=
  ((rangeFrom 1 3).foldl (fun h q =>
    let a := nth 0 ss q
    let b := nth 0 ss h
    if b < a ∨ (a = b ∧ nth 0 ts h < nth 0 ts q) then q else h) 0)

/-- d_t before the dwell rule. -/
def nextDt (dt smax dtMax : Nat) (th : Int) : Nat :=
  if smax = 3 then 10
  else if smax = 2 then (if dtMax < dt then dt - 1 else if 1600 ≤ th ∧ dt < dtMax then dt + 1 else dt)
  else dt - 1

/-- One THERMAL record, written with those of its boundary. -/
def thermRecord (d : Dev) (q : Nat) : Dev :=
  let d := holdFault d none (draftFault d 0x0B (0xE0 + q) 9 0xFF 0 (oGet d (0x8210 + q) 0x02) (derate d))
  oSet { d with therm := { d.therm with lastQ := setNth d.therm.lastQ q d.therm.k } } (0x8210 + q) 0x04 (blockNow d)

/-- TEMP and TEMP_MAX of a quadrant. -/
def thermTemp (ts : List Int) (d : Dev) (q : Nat) : Dev :=
  let t := wrapS 16 (nth 0 ts q)
  oSetI (oSetI d (0x8210 + q) 0x01 16 t) (0x8210 + q) 0x03 16 (max (sgn 16 (oGet d (0x8210 + q) 0x03)) t)

/-- An evaluation with the latest conversions. DEDUCED: log entry 37. -/
def thermEval (d : Dev) : Dev :=
  let k := d.therm.k
  let ts := (rangeFrom 0 4).map (fun q => wrapS 16 (nth 0 d.therm.conv q))
  let due (q : Nat) : Bool := decide (32 ≤ (k : Int) - nth (-32) d.therm.lastQ q)
  let d := (rangeFrom 0 4).foldl (thermTemp ts) d
  let old (q : Nat) : Nat := oGet d (0x8210 + q) 0x02
  let ss := (rangeFrom 0 4).map (fun q => if due q then thermTarget (nth 0 ts q) (old q) else old q)
  let moved := (rangeFrom 0 4).filter (fun q => nth 0 ss q != old q)
  let smax := ss.foldl max 0
  let h := hottest ss ts
  let dt := oGet d 0x8200 0x03
  let new := nextDt dt smax (rs d 0x8200 0x04) (nth 0 ts h)
  let act := new ≠ dt ∧ 32 ≤ (k : Int) - d.therm.lastDt ∧ (moved.contains h ∨ due h)
  let d := (rangeFrom 0 4).foldl (fun d q => oSet d (0x8210 + q) 0x02 (nth 0 ss q)) d
  let d := oSet (oSet d 0x8200 0x01 smax) 0x8200 0x02 h
  let d := if smax = 3 then bump d 0x8200 0x0A else d
  let d := oSet d 0x8230 0x09 (if smax = 3 then 0 else 1)
  let d := if act then { oSet d 0x8200 0x03 new with therm := { d.therm with lastDt := k } } else d
  let recs := (rangeFrom 0 4).filter (fun q => moved.contains q || (act && q == h))
  let d := recs.foldl thermRecord d
  { d with therm := { d.therm with k := k + 1 } }

/-- THERMAL_EVAL with four conversions: while the media runs they are taken at the next boundary (R695).
DESIGN CHOICE: log entry 15. -/
def execThermalEval (t0 t1 t2 t3 : Int) (s : State) : Out :=
  onAwake (fun d =>
    let d := { d with therm := { d.therm with conv := [t0, t1, t2, t3] } }
    if mediaRuns d then d else fillLost (thermEval d) []) s

/-! ### The TAP (R703-R705) -/

/-- An instruction enters the instruction register. -/
def tapLoad (d : Dev) (ir : Nat) : Dev := { d with tap := { d.tap with ir := ir } }

/-- The digital I/O balls that the boundary register covers (R704), by number: 0-23 the pins of SAP0-3 in the order of 18 R551,
24-26 AVS_CLK, AVS_MDATA, AVS_SDATA, 27-34 TIN, 35-42 TOUT, 43-50 U0RX, U0TX to U3TX, 51-55 RST_N, WRST_N, WAKE_N, THERM_N,
WCLK, 56-60 LDCV, CLRCV, SMX0-2. DESIGN CHOICE: log entry 53. -/
def ballCount : Nat := 61

/-- A ball of port n that it drives, at instant t in half BCLK periods of a frame; none for an input. -/
def sapBall (d : Dev) (n k t : Nat) : Option Bool :=
  let bit := (t / 2 + sapBclks d n - sapDelay d n) % sapBclks d n
  match k with
  | 0 => if sapMaster d n then some (sapBclk d n t) else none
  | 1 => if sapMaster d n then some (sapFsync d n (t / 2)) else none
  | 4 => some (sapOn d n && sapDo d n 0 bit)
  | 5 => some (sapOn d n && sapDo d n 1 bit)
  | _ => none

/-- The level that the state holds for ball b at instant t of its frame or character, none where it holds none. -/
def ballHeld (d : Dev) (b t : Nat) : Option Bool :=
  if b < 24 then sapBall d (b / 6) (b % 6) t
  else if b < 27 then none
  else if b < 35 then some (bitOf (oGet d 0x7C40 0x0A) (b - 27))
  else if b < 43 then some (bitOf (oGet d 0x7C40 0x0B) (b - 35))
  else if b < 51 then (if b % 2 = 0 then some (txLine d ((b - 43) / 2) t) else none)
  else if b = 54 then some (oGet d 0x8230 0x09 == 1)
  else if b = 57 then some d.analog.clrPin
  else if 58 ≤ b then some (bitOf d.sense.smx (b - 58))
  else none

/-- The balls that the device drives: DO, a master's clocks, AVS_CLK, AVS_MDATA, TOUT, UnTX, THERM_N, SMX. -/
def ballOut (d : Dev) (b : Nat) : Bool :=
  if b < 24 then b % 6 ≥ 4 || (b % 6 < 2 && sapMaster d (b / 6))
  else b < 26 || (35 ≤ b && b < 43) || (43 ≤ b && b < 51 && b % 2 == 0) || b == 54 || (58 ≤ b && b < 61)

/-- What the device drives on ball b at instant t: the boundary register's bit under EXTEST and CLAMP, nothing under HIGHZ, else
the level of its function; none where it drives nothing or the state holds no level. -/
def ballDrive (d : Dev) (b t : Nat) : Option Bool :=
  if ballOut d b = false ∨ d.tap.ir = 3 then none
  else if d.tap.ir = 0 ∨ d.tap.ir = 2 then some (bitOf d.tap.bsr b)
  else ballHeld d b t

/-- The boundary register captures the levels that `level` gives for the balls at an instant that is a free value; one that it does not
give is a free bit. DEDUCED: log entry 53. -/
def tapCapture (d : Dev) (level : Nat → Nat → Option Bool) : Dev :=
  let n := d.free
  let bit (b : Nat) : Nat := if (level b (Config.freeNat n)).getD (Config.freeBit (n + 1 + b)) then 2 ^ b else 0
  { d with free := n + ballCount + 1, tap := { d.tap with sampled := ((rangeFrom 0 ballCount).map bit).sum } }

/-- EXTEST drives the output balls from the boundary register and captures what stands on the inputs; what it captures of an output is
a free bit. DEDUCED: log entry 53. -/
def execExtest (s : State) : Out :=
  onDev (fun d => tapLoad (tapCapture d (fun b t => if ballOut d b then none else ballHeld d b t)) 0x00) s

/-- CLAMP drives the balls from the boundary register, HIGHZ releases them. DEDUCED: log entry 53. -/
def execClamp (s : State) : Out := onDev (fun d => tapLoad d 0x02) s
def execHighz (s : State) : Out := onDev (fun d => tapLoad d 0x03) s

/-- SAMPLE/PRELOAD: the levels of the device's functions are captured, whatever instruction was selected before, and what is shifted in
stands in the boundary register. DEDUCED: log entry 53. -/
def execSamplePreload (bits : Nat) (s : State) : Out :=
  onDev (fun d =>
    let d := tapCapture d (ballHeld d)
    tapLoad { d with tap := { d.tap with bsr := bits % 2 ^ ballCount } } 0x01) s

/-- BYPASS, and every private opcode (R703). DEDUCED: log entry 53. -/
def execBypass (s : State) : Out := onDev (fun d => tapLoad d 0xFF) s

/-- TAP_RESET selects BYPASS. DEDUCED: log entry 53. -/
def execTapReset (s : State) : Out := onDev (fun d => tapLoad d 0xFF) s

end Sys2Proof.Machine
end

