-- ==== Sys2Proof/Machine/Versions.lean ====
section
/-!
DEFINITION. Sys2Proof/Machine/Versions.lean: configuration versions (04 R130-R137): opening a staging version,
COMMIT, REVERT and ABORT with their preparation, and the switch with what it does in every subsystem.
-/
namespace Sys2Proof.Machine

/-! ### What a switch does (04 R136), subsystem by subsystem -/

/-- Queues whose number range or depth changed are emptied (16 R489). -/
def switchQueues (d : Dev) (old : Version) : Dev :=
  let v := d.ver.active
  let hit := (d.stalk.queues.map (·.1)).filter (fun q => kindIn old q != kindIn v q || depthIn old q != depthIn v q)
  hit.foldl (fun d q =>
    let d := bump d 0x5800 0x24 (qCount d q)
    resumeProducers (modQueue d q (fun x => { emptyItems x with last := 0, doomed := 0 })) q) d

/-- Thread t at a switch (16 R466, R497). -/
def switchThread (old : Version) (d : Dev) (t : Nat) : Dev :=
  let o (s : Nat) : Nat := vGet old 0x5801 s t
  if o 0x01 = 1 ∧ tOn d t = false then disableThread d (o 0x02 == 1) t
  else if tOn d t ∧ (o 0x01 ≠ 1 ∨ o 0x02 ≠ tf d 0x02 t ∨ o 0x03 ≠ tf d 0x03 t ∨ o 0x04 ≠ tf d 0x04 t) then
    createThread d t
  else if o 0x06 ≠ tf d 0x06 t then relist d [t]
  else d

/-- A spare core to which the active version binds threads anew enters service (22 R667). DEDUCED: log entry 65. -/
def bindSpare (d : Dev) (n : Nat) : Dev :=
  modCore (enterService d (0x40 + n)) n (fun c => { c with stopped := coreFrozen d n })

/-- Threads, the cores they are bound to, and constant areas (14 R422). -/
def switchStalk (d : Dev) (old : Version) : Dev :=
  let d := (spareCores d old d.ver.active).foldl bindSpare d
  let d := (rangeFrom 0 20).foldl (fun d n =>
    if [0x19, 0x1A, 0x1B].any (fun s => differs old d.ver.active (0x5003 + 32 * n) s) then loadConst d n else d) d
  let ts := sortBy (fun a b => decide (a < b)) ((vThreads old ++ vThreads d.ver.active).eraseDups)
  schedule (ts.foldl (switchThread old) d)

/-- The buffers of the output streams of port l that the active version disables are emptied (17 R524).
DESIGN CHOICE: log entry 69. -/
def keepStreams (d : Dev) (l : Nat) : Dev :=
  modLink d l (fun x => { x with unsent := x.unsent.filter (fun c => stOn (rs d (linkIdx l) (0x20 + c.1))) })

/-- Link port l (17 R544, R545). -/
def switchLink (old : Version) (d : Dev) (l : Nat) : Dev :=
  let v := d.ver.active
  if vLink v l 0x01 = 0 then (if vLink old l 0x01 = 1 then leaveLink d l 5 else d)
  else if vLink old l 0x01 = 0 then startTraining d l
  else if [0x02, 0x03, 0x04, 0x05].any (fun s => differs old v (linkIdx l) s) then startTraining (portDown d l) l
  else if (linkOf d l).old.isNone && (linkUp d l || linkState d l == 6) then
    modLink (keepStreams d l) l (fun x => { x with old := some old })
  else keepStreams d l

/-- The spare of quadrant q serves position 32 + q in capacity mode (10 R278, R302), and is a spare again after it. -/
def switchCapacity (on : Bool) (d : Dev) (q : Nat) : Dev :=
  if on then match spareIn d true q with
    | some u => setServe (enterService d u) (32 + q) (some u)
    | none => d
  else match podOf d (32 + q) with
    | some u => setServe (setUnit d u 1) (32 + q) none
    | none => d

/-- Port p's bucket after a change of its quota (04 R139). DEDUCED: log entry 27. -/
def switchQuota (old : Version) (d : Dev) (p : Nat) : Dev :=
  let q := rs d (0x1000 + p) 0x03
  if vGet old (0x1000 + p) 0x03 = q then d else modPort d p (fun x => { x with bucket := 8 * q })

/-- Items of version v that version act does not hold at the same size, with their places (13 R393). -/
def newItems (act v : Version) : List (Nat × Nat × Nat) :=
  (heapPlaced v).filter (fun t => (keptBase (heapPlaced act) (t.1, t.2.1)).isNone)

/-- Ranges of a reverted-to version's items that the pool of the version reverted from covered (13 R395). -/
def poolHit (act v : Version) : List (Nat × Nat × Nat) :=
  let lo := poolTop act
  ((heapPlaced v).filter (fun t => lo < t.2.2 + t.2.1)).map (fun t =>
    let a := max lo t.2.2
    (t.1, t.2.2 + t.2.1 - a, a))

/-- Bytes of ranges. -/
def rangeBytes (l : List (Nat × Nat × Nat)) : Nat := (l.map (fun t => t.2.1)).sum

/-- Words of the program store and of the tuning tables that a switch changes are written whole, and their poison is
cleared. DEDUCED: log entry 57. -/
def writeStores (d : Dev) (old : Version) : Dev :=
  let v := d.ver.active
  clearPoison d (fun w =>
    if w < 0x80000 then (rangeFrom (8 * w % 2048) 8).any (fun o => recByte old (w / 256) o != recByte v (w / 256) o)
    else if 0x100000 ≤ w ∧ w < 0x101000 then
      (rangeFrom 1 2).any (fun e => differs old v (0x3800 + (w - 0x100000) / 64) (2 * (w % 64) + e))
    else false)

/-- Everything that follows from the active version having replaced `old`, at boundary b or outside running. A port
that gives the reference and is disabled loses it by REFERENCE_LOSS (18 R564, 02 R51). A TIME_MASTER that names a port which
is down already begins no holdover (02 R62). DESIGN CHOICE: log entry 58. -/
def switchEffects (d : Dev) (old : Version) (b : Nat) : Dev :=
  let v := d.ver.active
  let d := switchRegions (relocAbort (writeStores d old)) old
  let d := if differs old v 0x6810 0x01 then startRetrain d else d
  let d := switchStalk (switchQueues d old) old
  let d := (rangeFrom 0 4).foldl (switchLink old) d
  let d := (rangeFrom 0 4).foldl (switchSap old b) d
  let d := switchTimers (switchSense (switchAnalog d old b) old) old
  let d := (rangeFrom 0 4).foldl (fun d n => if uartChanged old v n then uartSwitch d n (vUart old n 0x01) else d) d
  let d := reprogram d old
  let d := if mediaRuns d then rephase d old ((b + 2) * blockLen d) else d
  let d := if differs old v 0x4C10 0x02 then
      (rangeFrom 0 4).foldl (switchCapacity (vGet v 0x4C10 0x02 == 1)) d else d
  let d := if differs old v 0x2010 0x02 then switchSource d else d
  let d := (rangeFrom 0 8).foldl (switchQuota old) d
  if mediaState d = 0 then idleVdd d else d

/-- EFF_BOUNDARY of a switch outside running (R135). DEDUCED: log entry 27. -/
def effNone : Nat := 0xFFFFFFFFFFFFFFFF

/-- Windows whose work has not sealed or not begun: those of core and Pod transactions and of the releases held. -/
def openWindows (d : Dev) : List Nat :=
  d.cores.flatMap (fun c => (openTxns c.2).map (·.window)) ++ d.alloc.podTxns.map (·.window) ++
    d.stalk.threads.flatMap (fun c => c.2.releases.map (·.1))

/-- A switch at boundary b while running keeps the version it replaces for the windows before b that are still open
(03 R68). -/
def keepBefore (d : Dev) (b : Nat) : List (Nat × Version) :=
  if mediaRuns d then
    ((b, d.ver.active) :: d.ver.before).filter (fun x => (openWindows d).any (fun w => decide (w < x.1)))
  else []

/-- The switch of a COMMIT: staging becomes active, active becomes previous (R136). DEDUCED: log entry 27. -/
def switchCommit (d : Dev) (v : Version) (b : Nat) : Dev :=
  let old := d.ver.active
  let d := oSet (oSet d 0x6110 0x07 (rangeBytes (newItems old v))) 0x0020 0x07 (if mediaRuns d then b else effNone)
  let d := switchEffects { d with ver := { d.ver with
    active := v, before := keepBefore d b, previous := some old, staging := none, owner := none, stage := .idle, switchAt := none, untold := none } } old b
  { d with ver := { d.ver with active := { d.ver.active with caps := [] } } }

/-- The switch of a REVERT: previous becomes active, and there is no previous one. It has the effects of a COMMIT's switch, CUR_PROGRAM
with PROGRAM among them (09 R272). DEDUCED: log entries 27, 66. -/
def switchRevert (d : Dev) (v : Version) (b : Nat) : Dev :=
  let old := d.ver.active
  let d := oSet (oSet d 0x6110 0x07 (rangeBytes (poolHit old v))) 0x0020 0x07 (if mediaRuns d then b else effNone)
  switchEffects { d with ver := { d.ver with
    active := v, before := keepBefore d b, previous := none, staging := none, owner := none, stage := .idle, switchAt := none, untold := none } } old b

/-- The media stops with a switch pending: it happens at once. DEDUCED: log entry 27. -/
def switchNow (d : Dev) : Dev :=
  match d.ver.stage, d.ver.staging, d.ver.previous with
  | .commitPending, some v, _ => switchCommit d v 0
  | .revertPending, _, some v => switchRevert d v 0
  | _, _, _ => d

/-! ### Answers that come first (17 R544, 21 R642, 23 R681, R686) -/

/-- A request whose answer is known and still stands behind others. -/
def Outq.due : Outq → Bool
  | .live _ _ c => c.isSome
  | .event _ | .item _ _ _ | .req _ _ _ => false

/-- Nothing that answers a request of port p still has to leave the device. DEDUCED: log entry 68. -/
def answered (d : Dev) (p : Nat) : Bool :=
  (port d p).session == false ||
  (!(port d p).outq.any Outq.due &&
    (if p < 4 then (linkOf d p).wait.isEmpty
     else (uartOf d (p - 4)).frames.isEmpty && (uartOf d (p - 4)).tx.isEmpty && (uartOf d (p - 4)).sending.isNone))

/-- A switch from `old` to `v` disables or restarts port p. -/
def portRestarts (old v : Version) (p : Nat) : Bool :=
  if p < 4 then [0x01, 0x02, 0x03, 0x04, 0x05].any (fun s => differs old v (linkIdx p) s) else uartChanged old v (p - 4)

/-- The pending switch waits for the answer of the COMMIT or REVERT on the port that it restarts. -/
def switchHeld (d : Dev) : Bool := d.ver.untold.any (fun p => !answered d p)

/-- Outside running, a pending switch happens once its answer has left. DEDUCED: log entry 68. -/
def switchWaiting (d : Dev) : Dev := if switchHeld d then d else switchNow d

/-- Boundary k: a switch that is due and whose answer has left. -/
def switchDue (d : Dev) (k : Nat) : Dev :=
  if switchHeld d ∨ k < d.ver.switchAt.getD 0 then d
  else match d.ver.stage, d.ver.staging, d.ver.previous with
  | .commitPending, some v, _ => switchCommit d v k
  | .revertPending, _, some v => switchRevert d v k
  | _, _, _ => d

/-- The answer that the pending switch waited for has left. -/
def noteTold (d : Dev) : Dev := if switchHeld d then d else { d with ver := { d.ver with untold := none } }

/-- The port of a COMMIT or REVERT to version v, if that restarts it. -/
def untoldPort (d : Dev) (v : Version) (p : Nat) : Option Nat := if portRestarts d.ver.active v p then some p else none

/-! ### Requests (04 R131-R137) -/

/-- The answer of a request that names a version: code, VERSION and EFF_BOUNDARY, and the state. -/
abbrev VerAns := Nat × Nat × Nat × Dev

/-- Boundary of a switch asked for SIX `req` (R135). -/
def effAt (d : Dev) (req : Nat) : Nat := max (ceilDiv req (blockLen d)) (d.media.block + 1)

/-- Zero the ranges of a list (13 R394, R395). -/
def zeroRanges (d : Dev) (l : List (Nat × Nat × Nat)) : Dev := l.foldl (fun d t => gZero d t.2.2 t.2.1) d

/-- Whether port p may act on the version machine now; the code where it may not (R132). -/
def stageCode (d : Dev) (p : Nat) : Nat :=
  match d.ver.stage with
  | .idle => 0
  | .opened => if d.ver.owner = some p then 0 else 2
  | _ => if d.ver.owner = some p then 7 else 2

/-- The staging version that a staged write of port p acts on: a copy of the active one opens in IDLE (R130, R131). -/
def openStaging (d : Dev) (p : Nat) : Version × Dev :=
  match d.ver.staging with
  | some v => (v, d)
  | none =>
    let n := d.ver.highest + 1
    let v := { d.ver.active with num := n }
    (v, { d with ver := { d.ver with staging := some v, owner := some p, stage := .opened, highest := n } })

/-- Put a changed staging version back. -/
def putStaging (d : Dev) (v : Version) : Dev := { d with ver := { d.ver with staging := some v } }

/-- COMMIT of port p; `errs` are the errors that the head fills of its preparation meet. While the media does not run, the
switch follows the response (R135). DEDUCED: log entry 27. -/
def commitGo (d : Dev) (p req : Nat) (errs : List (Nat × Bool)) : VerAns :=
  if stageCode d p ≠ 0 then (stageCode d p, 0, 0, d)
  else match d.ver.staging with
    | none => (0, d.ver.active.num, 0, d)
    | some s => match commitChecks d s req with
      | .inl c => (c, 0, 0, d)
      | .inr v =>
        let d := fillHeads (zeroRanges d (newItems d.ver.active v)) v errs
        if mediaRuns d then
          let b := effAt d req
          let d := { d with ver := { d.ver with staging := some v, stage := .commitPending, switchAt := some b, untold := untoldPort d v p } }
          (0, v.num, b, d)
        else (0, v.num, effNone, 
          { d with ver := { d.ver with staging := some v, stage := .commitPending, switchAt := none, untold := untoldPort d v p } })

/-- REVERT of port p. DEDUCED: log entry 27. -/
def revertGo (d : Dev) (p req : Nat) (errs : List (Nat × Bool)) : VerAns :=
  let code := match d.ver.stage with
    | .opened => if d.ver.owner = some p then 7 else 2
    | _ => stageCode d p
  if code ≠ 0 then (code, 0, 0, d)
  else match d.ver.previous with
    | none => (9, 0, 0, d)
    | some v =>
      let c := revertChecks d v req
      if c ≠ 0 then (c, 0, 0, d)
      else
        let d := fillHeads (zeroRanges d (poolHit d.ver.active v)) v errs
        if mediaRuns d then
          let b := effAt d req
          let d := { d with ver := { d.ver with owner := some p, stage := .revertPending, switchAt := some b, untold := untoldPort d v p } }
          (0, v.num, b, d)
        else (0, v.num, effNone, 
          { d with ver := { d.ver with owner := some p, stage := .revertPending, switchAt := none, untold := untoldPort d v p } })

/-- ABORT of port p: staging, or the pending switch, is discarded. DEDUCED: log entry 26. -/
def abortGo (d : Dev) (p : Nat) : VerAns :=
  match d.ver.stage with
  | .idle => (0, 0, 0, d)
  | _ =>
    if d.ver.owner = some p ∨ hasRight d p 4 then
      let n := match d.ver.staging with
        | some v => v.num
        | none => 0
      (0, n, 0, { d with ver := { d.ver with staging := none, owner := none, stage := .idle, switchAt := none, untold := none } })
    else (2, 0, 0, d)

end Sys2Proof.Machine
end

