-- ==== Sys2Proof/Machine/Reads.lean ====
section
/-!
DEFINITION. Sys2Proof/Machine/Reads.lean: the value that a READ, a BLOCK-READ or a notification of an object returns
(04 R101-R104, R117, R121; 05 R149-R161): stored values, and those that are views of other state.
-/
namespace Sys2Proof.Machine

/-! ### Device-level status (05 R157-R161) -/

/-- Pods in service. -/
def podsIn (d : Dev) : Nat := ((rangeFrom 0 36).filter (fun u => unitSt d u = 0)).length

/-- DEVICE_STATE. -/
def deviceState (d : Dev) : Nat := match d.power.phase with
  | .held _ | .stopped => 0
  | _ => if podsIn d < posConfigured d ∨ coresIn d < 16 then 2 else 1

/-- A quadrant holds a Pod spare; a Marrow spare. -/
def quadSpare (d : Dev) (pod : Bool) (q : Nat) : Bool := (quadUnits pod q).any (fun u => unitSt d u = 1)

/-- EXCLUDED_INPUTS (03 R88): converters, sense rings and Link input streams of the active version; direct shared access. The
list of 03 R94 gives a bus read outside R82 no bit, and it sets none. DESIGN CHOICE: log entry 59. -/
def excludedInputs (d : Dev) : Nat :=
  b2n ((rangeFrom 0 4).any (fun n => sapOn d n && sapF d n 0x08 != 0)) +
  2 * b2n (rs d 0x7800 0x01 == 1 && (rs d 0x7800 0x03 != 0xFFFF || rs d 0x7800 0x04 != 0xFFFF)) +
  4 * b2n ((rangeFrom 0 4).any (fun l => vLink d.ver.active l 0x01 == 1 &&
    (rangeFrom 0 16).any (fun s => stOn (vLink d.ver.active l (0x30 + s))))) +
  (oGet d 0x0110 0x09 &&& 8)

/-- STATUS. -/
def statusWord (d : Dev) : Nat :=
  let st := match d.ver.stage with
    | .idle => 0
    | .opened => 8
    | _ => 16
  b2n (deviceState d != 0) + 2 * b2n (mediaRuns d) + 4 * b2n (mediaState d == 3) + st +
  32 * b2n ((rangeFrom 0 8).any (frozen d)) + 64 * b2n ((rangeFrom 0 20).any (coreFrozen d)) +
  128 * b2n (oGet d 0x0110 0x07 != 0) + 256 * b2n (excludedInputs d != 0) +
  512 * b2n ((rangeFrom 0 4).any (fun q => !quadSpare d false q || (rs d 0x4C10 0x02 == 0 && !quadSpare d true q))) +
  1024 * b2n (deviceState d == 2) + 2048 * rs d 0x4C10 0x02 + 4096 * oGet d 0x8200 0x01 +
  16384 * min 15 (derate d) + 262144 * b2n ((rangeFrom 0 4).any (fun l => linkState d l = 3 || linkState d l = 4)) +
  524288 * oGet d 0x2020 0x0D

/-- The versions' objects (04 R146). -/
def readVer (d : Dev) (sub : Nat) : Nat :=
  let v := d.ver
  match sub with
  | 1 => v.active.num
  | 2 => (v.previous.map (·.num)).getD 0
  | 3 => b2n v.previous.isSome
  | 4 => (v.staging.map (·.num)).getD 0
  | 5 => (match v.stage with
    | .idle => 0
    | .opened => 1
    | .commitPending => 2
    | .revertPending => 3)
  | 6 => v.owner.getD 0xFF
  | _ => v.switchAt.getD (oGet d 0x0020 0x07)

/-- Fused and ROM identity numbers (05 R157). DESIGN CHOICE: log entry 4. -/
def identityNat (sub : Nat) : Nat := match sub with
  | 3 => siliconRev
  | 5 => Config.fwMinor % 256
  | 6 => Config.fwPatch % 256
  | 7 => Config.uniqueId % 2 ^ 64
  | 8 => Config.dictCrc % 2 ^ 32
  | s => defaultAt (okey 0 s 0)

/-! ### Time (02 R42, R53-R58, R66) -/

/-- The engine-time objects that are views; LINK_TIME_NOW lies within a cycle of the latest cycle boundary, by a free
value. -/
def readTime (d : Dev) (idx sub : Nat) : Nat :=
  if idx = 0x2000 ∧ sub = 5 then blockNow d
  else if idx = 0x2020 ∧ sub = 1 then (linkTime d + Config.freeNat d.free % 125000) % 2 ^ 64
  else if idx = 0x2020 ∧ sub = 2 then (d.time.anchor.map (·.1)).getD 0
  else if idx = 0x2020 ∧ sub = 3 then (d.time.anchor.map (fun a => a.2 / 65536)).getD 0
  else if idx = 0x2020 ∧ sub = 4 then (d.time.anchor.map (fun a => a.2 % 65536)).getD 0
  else if idx = 0x2020 ∧ sub = 5 ∧ mediaRuns d = false then nominalRate (rs d 0x2010 0x01)
  else if idx = 0x2030 ∧ sub = 1 then 2 * blockLen d + 2 + groupDelay d 0
  else if idx = 0x2030 ∧ sub = 2 then horizon d
  else if idx = 0x2030 then roundDiv (blockLen d * 10 ^ 9) (engineRate d)
  else oGet d idx sub

/-! ### Parts and voices (09 R275, 08 R252, 10 R305-R307) -/

/-- Part p as it stood at the first sample of the block computed in the latest window. -/
def shownPart (d : Dev) (p : Nat) : PartSt := mget PartSt.zero d.alloc.shown p

def readPart (d : Dev) (p sub : Nat) : Nat := match sub with
  | 0x1E => (shownPart d p).program
  | 0x1F => nSlots d p
  | _ => min 255 (partOf d p).held.length

def readControl (d : Dev) (p sub : Nat) : Nat :=
  if sub = 0xF9 then (shownPart d p).press
  else if sub = 0xFA then (shownPart d p).bend
  else mget 0 (shownPart d p).cc (sub - 0x81)

/-- The ENV1 output of slot n's voice in the view of the latest window, of an ended one as it ended. -/
def shownLevel (d : Dev) (n : Nat) (v : Voice) : Int :=
  if (mfind d.alloc.slots n).isSome then viewE v (latestWindow d) else (v.status.head?.map (·.e)).getD 0

/-- V_STATE of a voice, which has ended or not. -/
def voiceState (ended : Bool) (v : Voice) : Nat :=
  if ended then 4 else if v.rel.isSome then 3 else if v.sustained then 2 else 1

/-- A field of the voice in slot n, or of the one that ended there and whose slot no other has taken. DEDUCED: log entry 66. -/
def readVoice (d : Dev) (sub n : Nat) : Nat := match (mfind d.alloc.slots n).or (mfind d.alloc.ended n) with
  | none => 0
  | some v => match sub with
    | 0x11 => voiceState (mfind d.alloc.slots n).isNone v
    | 0x12 => v.part
    | 0x13 => v.program
    | 0x14 => v.chan * 256 + v.note
    | 0x15 => v.serial
    | 0x16 => v.start
    | _ => wrapU 32 (shownLevel d n v)

/-- An object of the allocator. SLOT_CHARGE and LANE_CHARGE read modulo 65,536 (10 R307). DESIGN CHOICE: log entry 71. -/
def readAlloc (d : Dev) (idx sub inst : Nat) : Nat :=
  if idx = 0x4C00 then
    if sub = 0x09 then d.alloc.slots.length
    else if sub = 0x0A then d.alloc.lanes.length
    else if 0x11 ≤ sub then readVoice d sub inst
    else oGet d idx sub
  else if idx = 0x4C10 then (match sub with
    | 3 => posConfigured d
    | 4 => (positionsIn d).length
    | 5 => budget d
    | 6 => slotLimit d
    | _ => oGet d idx sub)
  else
    match sub, positionOf d (idx - 0x4C40) with
    | 1, o => o.getD 0xFF
    | 6, _ => oGet d idx sub
    | _, none => 0
    | 2, some o => slotCharge d o
    | 3, some o => laneCharge d o
    | 4, some o => (d.alloc.slots.filter (fun x => x.1 / 32 = o)).length
    | _, some o => (d.alloc.lanes.filter (fun x => x.1 / 8 = o)).length

/-- A window opens: CHARGE_PEAK of every Pod that serves a position. -/
def chargePeaks (d : Dev) : Dev :=
  (positionsIn d).foldl (fun d o => match podOf d o with
    | some p => oSet d (0x4C40 + p) 0x06 (max (oGet d (0x4C40 + p) 0x06) (min 65535 (slotCharge d o + laneCharge d o)))
    | none => d) d

/-! ### Cores, threads, counters, queues, flows (14 R433, 16 R501-R505) -/

/-- Code of a thread state (16 R467). -/
def stateCode : TState → Nat
  | .disabled => 0 | .idle => 1 | .waiting => 2 | .delayed => 3 | .ready => 4 | .running => 5 | .stalled => 6
  | .suspended => 7

/-- FETCHING. -/
def fetching (d : Dev) (n : Nat) : Nat :=
  let c := coreOf d n
  if c.run.isNone then 0 else if c.bank = 0 then 1 else 2

def readCore (d : Dev) (idx sub : Nat) : Nat :=
  let n := (idx - 0x5000) / 32
  match sub with
  | 2 => fetching d n
  | 3 => ((vOn d.ver.active).filter (fun t => tf d 0x03 t = n)).length
  | _ => oGet d idx sub

def readThread (d : Dev) (sub t : Nat) : Nat :=
  let x := thr d t
  match sub with
  | 0x1C => stateCode x.st
  | 0x1D => x.waitOn.getD 0xFFFF
  | 0x1E => x.flow.getD 0xFFFF
  | 0x1F => x.gate
  | _ => oGet d 0x5801 sub t

def readCounter (d : Dev) (sub c : Nat) : Nat := match sub with
  | 0x10 => cnt d c
  | 0x13 => (waitersOf d c).length
  | 0x20 => tickNow d
  | 0x21 => ((vOn d.ver.active).filter (fun t => tf d 0x06 t = 1)).length
  | _ => oGet d 0x5800 sub c

def readQueue (d : Dev) (sub q : Nat) : Nat := match sub with
  | 0x01 => qKind d q
  | 0x03 => qDepth d q
  | 0x04 => qCount d q
  | 0x05 => b2n (qCount d q == 0)
  | 0x0C => (flowFor d q).getD 0xFFFF
  | _ => oGet d 0x5A01 sub q

def readFlow (d : Dev) (idx sub : Nat) : Nat := match sub with
  | 2 => (flowOf d (idx - 0x5C00)).holder.getD 0xFFFF
  | 3 => b2n (flowOf d (idx - 0x5C00)).inService
  | _ => oGet d idx sub

def readDelay (d : Dev) (idx sub : Nat) : Nat :=
  let l := mget [] d.stalk.delays (idx - 0x5E00)
  match sub with
  | 2 => l.length
  | 3 => (bestBy (fun a b => decide (a < b)) (l.map (·.1))).getD 0xFFFFFFFFFFFFFFFF
  | _ => oGet d idx sub

def readPool (d : Dev) (sub : Nat) : Nat := match sub with
  | 2 => 1536 - rs d 0x5F00 0x01
  | 8 => depthSum d.ver.active
  | 9 => 131072 - depthSum d.ver.active
  | s => oGet d 0x5F00 s

/-! ### Gourd and Tuber (13 R397-R399, 12 R362-R364) -/

/-- First address and size of region r (13 R367, R398). -/
def regionBase (r : Nat) : Nat := nth 0 [0, 0x00400000, 0x00800000, 0x00C00000, 0x00D20000, 0x00D30000] r
def regionSize (r : Nat) : Nat := nth 0 [0x400000, 0x400000, 0x400000, 0x120000, 0x10000, 0x12D0000] r

/-- Largest interval of the user area that no item takes: between item ends and the next item or the top. -/
def largestFree (d : Dev) : Nat :=
  let l := heapPlaced d.ver.active
  let top := userTop d
  let starts := 0x00D40000 :: l.map (fun t => t.2.2 + t.2.1)
  (starts.map (fun a =>
    if l.any (fun t => t.2.2 ≤ a && a < t.2.2 + t.2.1) then 0
    else ((l.map (fun t => t.2.2)).filter (fun b => a < b)).foldl min top - a)).foldl max 0

def readHeap (d : Dev) (sub : Nat) : Nat :=
  let used := rangeBytes (heapPlaced d.ver.active)
  match sub with
  | 2 => userTop d
  | 3 => ((heapItems d.ver.active).filter (fun x => x.1 < 4096)).length
  | 4 => used
  | 5 => userTop d - 0x00D40000 - used
  | 6 => largestFree d
  | 1 | 7 => oGet d 0x6110 sub
  | s => (blockBase d.ver.active ((s - 0x11) / 2)).getD 0xFFFFFFFF

def readBank (d : Dev) (idx sub : Nat) : Nat := match sub with
  | 1 => (idx - 0x6000) / 16
  | 2 => Config.repairs (idx - 0x6000) % 5
  | 7 => poisonedIn d (idx - 0x6000)
  | _ => oGet d idx sub

def readRegion (d : Dev) (sub r : Nat) : Nat := match sub with
  | 0x09 => regionState d r
  | 0x0A => usersOf d r
  | 0x0C => mget 0 d.tuber.verify r
  | 0x0D => mget 0 d.tuber.verifyCrc r
  | _ => b2n (mfind d.tuber.heads r).isSome

def readTuber (d : Dev) (idx sub : Nat) : Nat :=
  if idx = 0x6810 then (if sub = 2 then capacity d else fittedBytes)
  else if idx = 0x6820 ∧ sub = 0x08 then bookedOf d.ver.active
  else if idx = 0x6820 ∧ sub = 0x09 then bookLimit d.ver.active
  else if idx = 0x6820 ∧ sub = 0x0A then headUsed d
  else if idx = 0x6820 ∧ sub = 0x0B then d.tuber.streams.length
  else if 0x6850 ≤ idx ∧ sub = 2 then (if Config.twoRanks then 2 else 1)
  else oGet d idx sub

/-! ### Ports, converters, sense, timers, UARTs (18 R566, 19 R592, 20 R615-R618, 21 R629, R643) -/

def readSap (d : Dev) (idx sub : Nat) : Nat :=
  let n := (idx - 0x7000) / 16
  let runs := sapOn d n && sapMaster d n && mediaRuns d
  match sub with
  | 0x0D => sapIns d n
  | 0x0E => sapOuts d n
  | 0x0F => if sapMaster d n then (if runs then engineRate d * 1000 else 0) else oGet d idx sub
  | 0x10 => if sapMaster d n then (if runs then engineRate d * sapF d n 0x04 * sapF d n 0x05 else 0) else oGet d idx sub
  | 0x11 => sapShown d n
  | _ => oGet d idx sub

def readAnalog (d : Dev) (idx sub : Nat) : Nat :=
  if idx < 0x7410 then (if sub = 8 then groupDelay d (idx - 0x7400) else oGet d idx sub)
  else if idx < 0x7420 then (if sub = 4 then cvCode (cvOf d (idx - 0x7410)) else oGet d idx sub)
  else if idx = 0x7420 ∧ sub = 6 then b2n (clearActive d)
  else if idx = 0x7580 ∧ sub = 2 then outputsEnabled d
  else oGet d idx sub

def readSense (d : Dev) (idx sub : Nat) : Nat :=
  if idx = 0x7800 ∧ sub = 8 then pathState d
  else if 0x7840 ≤ idx ∧ idx < 0x7860 ∧ sub = 8 then isqrt (oGet d idx 0x07)
  else if 0x7840 ≤ idx ∧ idx < 0x7860 ∧ sub = 9 then (envSt d (idx - 0x7840) / 65536).toNat
  else oGet d idx sub

def readUart (d : Dev) (idx sub : Nat) : Nat :=
  if idx < 0x7E04 ∧ sub = 0x03 then baudActual d (idx - 0x7E00)
  else if idx < 0x7E04 ∧ sub = 0x1B then rxFill (uartOf d (idx - 0x7E00))
  else oGet d idx sub

/-! ### Faults and Husk (22 R671-R673, 23 R706) -/

def readFaults (d : Dev) (idx sub : Nat) : Nat :=
  if idx = 0x8000 then (match sub with
    | 1 => ((rangeFrom 0 36).filter (fun u => unitSt d u = 1)).length
    | 2 => ((rangeFrom 0x40 20).filter (fun u => unitSt d u = 1)).length
    | 3 => ((rangeFrom 0 4).map (fun q => 2 ^ q * b2n (quadSpare d true q) + 2 ^ (8 + q) * b2n (quadSpare d false q))).sum
    | 4 => posConfigured d - (positionsIn d).length
    | _ => oGet d idx sub)
  else if idx < 0x8180 then (if sub = 1 then unitSt d (idx - 0x8100) else oGet d idx sub)
  else match sub with
    | 1 => b2n (poisonedIn d (idx - 0x8180) != 0)
    | 2 => min (2 ^ 32 - 1) (uptimeMs d - oGet d idx 0x02)
    | _ => oGet d idx sub

def readHusk (d : Dev) (idx sub : Nat) : Nat :=
  if idx = 0xF000 ∧ sub = 2 then Config.fuseCrc % 2 ^ 32
  else if idx = 0xF000 ∧ sub = 3 then ((rangeFrom 0 64).map (fun n => Config.repairs n % 5)).sum
  else oGet d idx sub

/-! ### Any object -/

/-- A selector of port p (05 R152, 09 R258, 10 R305, 16 R501). DEDUCED: log entry 54. -/
def selector (d : Dev) (p : Nat) (w : Win) : Nat :=
  let x := port d p
  match w with
  | .none => 0
  | .thread => x.selThread
  | .queue => x.selQueue
  | .region => x.selRegion
  | .counter => x.selCounter
  | .program => x.selProgram
  | .voice => x.selVoice

/-- The window that a selector object drives. -/
def selectorOf (idx sub : Nat) : Option Win :=
  if idx = 0x4800 then some .program
  else if idx = 0x4C00 ∧ sub = 0x10 then some .voice
  else if idx = 0x5800 ∧ sub = 0x01 then some .thread
  else if idx = 0x5800 ∧ sub = 0x02 then some .counter
  else if idx = 0x5A00 then some .queue
  else if idx = 0x6800 then some .region
  else none

/-- A scalar object outside versions, instance inst of its window, for port p. DEDUCED: log entry 54. -/
def readLive (d : Dev) (p idx sub inst : Nat) : Nat :=
  match selectorOf idx sub with
  | some w => selector d p w
  | none =>
  if idx = 0 then identityNat sub
  else if idx = 0x0010 then (match sub with
    | 1 => deviceState d
    | 2 => statusWord d
    | 3 => uptimeMs d
    | 5 => podsIn d
    | 6 => coresIn d
    | 7 => podsIn d * slotCount d
    | _ => oGet d idx sub)
  else if idx = 0x0020 then readVer d sub
  else if idx = 0x0110 ∧ sub = 9 then excludedInputs d
  else if 0x1000 ≤ idx ∧ idx < 0x1008 ∧ sub = 0x0F then (port d (idx - 0x1000)).subs.length
  else if idx < 0x2000 then oGet d idx sub
  else if idx < 0x3000 then readTime d idx sub
  else if idx < 0x3400 then readPart d (idx - 0x3000) sub
  else if idx < 0x3800 then readControl d (idx - 0x3400) sub
  else if idx = 0x4870 then (if sub = 5 then 1 else costOf d.ver.active inst)
  else if idx < 0x5000 then readAlloc d idx sub inst
  else if idx < 0x5300 then readCore d idx sub
  else if idx = 0x5800 then readCounter d sub inst
  else if idx = 0x5801 then readThread d sub inst
  else if idx = 0x5A01 then readQueue d sub inst
  else if 0x5C00 ≤ idx ∧ idx < 0x5E00 then readFlow d idx sub
  else if 0x5E00 ≤ idx ∧ idx < 0x5F00 then readDelay d idx sub
  else if idx = 0x5F00 then readPool d sub
  else if 0x6000 ≤ idx ∧ idx < 0x6040 then readBank d idx sub
  else if idx = 0x6100 then (if sub < 7 then regionBase (sub - 1) else regionSize (sub - 7))
  else if idx = 0x6110 then readHeap d sub
  else if idx = 0x6801 then readRegion d sub inst
  else if 0x6810 ≤ idx ∧ idx < 0x7000 then readTuber d idx sub
  else if 0x7000 ≤ idx ∧ idx < 0x7100 then readSap d idx sub
  else if 0x7400 ≤ idx ∧ idx < 0x7800 then readAnalog d idx sub
  else if 0x7800 ≤ idx ∧ idx < 0x7C00 then readSense d idx sub
  else if 0x7C00 ≤ idx ∧ idx < 0x7C10 ∧ sub = 0x15 then tcState d (idx - 0x7C00)
  else if 0x7E00 ≤ idx ∧ idx < 0x8000 then readUart d idx sub
  else if 0x8000 ≤ idx ∧ idx < 0x8200 then readFaults d idx sub
  else if 0xF000 ≤ idx then readHusk d idx sub
  else oGet d idx sub inst

/-- A value of a version, an RS object that is no field of a program record. PRIV of Root's service threads reads 1 (16 R465). -/
def readRs (v : Version) (idx sub inst : Nat) : Nat :=
  if idx = 0x5801 ∧ sub = 0x06 ∧ 2016 ≤ inst then 1
  else vGet v idx sub inst

/-- The version that a read with the STAGED flag sees (04 R104, R111). -/
def seenVersion (d : Dev) (staged : Bool) : Version := if staged then d.ver.staging.getD d.ver.active else d.ver.active

/-- Names of the identity objects (05 R157): "Hokukosar", "JH8100-FB", "Tireys Audio Silicon".
DESIGN CHOICE: log entry 4. -/
def identityText (sub : Nat) : List Nat :=
  if sub = 9 then [72, 111, 107, 117, 107, 111, 115, 97, 114]
  else if sub = 10 then [74, 72, 56, 49, 48, 48, 45, 70, 66]
  else [84, 105, 114, 101, 121, 115, 32, 65, 117, 100, 105, 111, 32, 83, 105, 108, 105, 99, 111, 110]

/-- The record of program p that a read sees: staging holds its own, and the active one stands in the program store of Gourd, where a
poisoned word reads as zero (09 R254, 13 R374). -/
def seenRecord (d : Dev) (staged : Bool) (p : Nat) : AMap Byte :=
  match if staged then d.ver.staging else none with
  | some v => recDiff v p
  | none => podRecord d p

/-- Bytes of a scalar or text object as a READ returns them.
DESIGN CHOICE: log entries 4, 13. DEDUCED: log entry 54. -/
def readBytes (d : Dev) (p : Nat) (staged : Bool) (r : ObjRef) (idx sub inst : Nat) : List Byte :=
  match r.row.ty with
  | .str _ =>
    if idx = 0x4870 then
      ((nameBytes (seenRecord d staged inst)).takeWhile (fun x => x != 0)).map (BitVec.ofNat 8)
    else (identityText sub).map (BitVec.ofNat 8)
  | t =>
    let v :=
      if r.row.acc = .rs ∧ r.row.win = .program then rU (seenRecord d staged inst) r.recAt r.row.ty.size
      else if r.row.acc = .rs then readRs (seenVersion d staged) idx sub inst
      else if idx = 0x4870 ∧ sub = 4 then
        let s := d.ver.staging.getD d.ver.active
        recordCost s (recDiff s inst)
      else readLive d p idx sub inst
    toLE t.size v

/-! ### Byte blocks (04 R118, R119) -/

/-- Bytes of core memory, of a program bank. -/
def bankByte (m : AMap Word) (o : Nat) : Byte := BitVec.ofNat 8 ((mget 0 m (o / 4)).toNat / 256 ^ (o % 4))

/-- Length of a DOM object. -/
def domLen (d : Dev) (r : ObjRef) (idx inst : Nat) : Nat :=
  if idx = 0x6801 then min (rgnBytes d.ver.active inst) 16777215
  else match r.row.ty with
    | .dom n => n
    | _ => 0

/-- n bytes of a DOM object from an offset. -/
def domBytes (d : Dev) (staged : Bool) (idx sub inst o n : Nat) : List Byte :=
  let v := seenVersion d staged
  if idx = 0x0301 then (((rangeFrom 0 64).flatMap (faultSlot d)).drop o).take n
  else if idx < 0x2000 then (rangeFrom o n).map (slotByte v ((idx - 0x1100) / 16))
  else if idx < 0x5000 then
    let m := seenRecord d staged (idx - 0x4000)
    (rangeFrom o n).map (fun i => BitVec.ofNat 8 (rB m i))
  else if idx < 0x5300 then
    let c := coreOf d ((idx - 0x5000) / 32)
    match idx % 32 with
    | 1 => (rangeFrom o n).map (bankByte c.progA)
    | 2 => (rangeFrom o n).map (bankByte c.progB)
    | _ => mread c.mem o n
  else if idx = 0x5A01 then ((toLE 16 ((queueOf d inst).items.headD (queueOf d inst).last).toNat).drop o).take n
  else if idx = 0x6100 then
    gourdBytes d (if sub = 0x10 then 0x00818000 + o else 0x00808000 + 1024 * (sub - 0x11) + o) n
  else mread d.tuber.mem (rgn d.ver.active inst 0x02 + o) n

end Sys2Proof.Machine
end

