-- ==== Sys2Proof/Machine/Notify.lean ====
section
/-!
DEFINITION. Sys2Proof/Machine/Notify.lean: subscriptions and notifications (04 R121-R123): their evaluation at a
boundary, or at the end of a Link cycle outside running.
-/
namespace Sys2Proof.Machine

/-- A read of LINK_TIME_NOW uses up a free value. -/
def readUses (d : Dev) (idx sub : Nat) : Dev := if idx = 0x2020 ∧ sub = 1 then (takeFree d).2 else d

/-- The value a subscription reports: the active value of its instance. -/
def noteValue (d : Dev) (p : Nat) (s : Subscription) : List Byte := match findObj s.idx s.sub with
  | some r => readBytes d p false r s.idx s.sub s.inst
  | none => if s.sub = 0 then toLE 1 ((highestSub s.idx).getD 0) else []

/-- A value waits to leave; it replaces a waiting one of the same object (R123). -/
def queueNote (d : Dev) (p : Nat) (n : Note) : Dev :=
  let same (x : Note) : Bool := x.idx = n.idx && x.sub = n.sub && x.inst = n.inst && x.node = n.node
  if (port d p).notes.any same then
    modPort (bump d (0x1000 + p) 0x0E) p (fun x => { x with notes := x.notes.map (fun y => if same y then n else y) })
  else modPort d p (fun x => { x with notes := x.notes ++ [n] })

/-- One subscription at an evaluation; a periodic one counts boundaries. -/
def evalSub (boundary : Bool) (p : Nat) (d : Dev) (s : Subscription) : Dev × Subscription :=
  if s.mode = 0 then
    let v := noteValue d p s
    let d := readUses d s.idx s.sub
    if s.last = some v then (d, s)
    else (queueNote d p ⟨s.node, s.idx, s.sub, s.inst, blockNow d, v⟩, { s with last := some v })
  else if boundary then
    if s.due ≤ 1 then
      let v := noteValue d p s
      (queueNote (readUses d s.idx s.sub) p ⟨s.node, s.idx, s.sub, s.inst, blockNow d, v⟩, { s with due := s.period })
    else (d, { s with due := s.due - 1 })
  else (d, s)

/-- The subscriptions of a list in turn. -/
def evalSubs (boundary : Bool) (p : Nat) : List Subscription → Dev × List Subscription → Dev × List Subscription
  | [], x => x
  | s :: r, (d, l) => let y := evalSub boundary p d s; evalSubs boundary p r (y.1, l ++ [y.2])

/-- Every subscription of a port is evaluated. -/
def evalPort (boundary : Bool) (d : Dev) (p : Nat) : Dev :=
  let r := evalSubs boundary p (port d p).subs (d, [])
  modPort r.1 p (fun x => { x with subs := r.2 })

/-- Every port. DEDUCED: log entries 24, 25. -/
def evalNotes (boundary : Bool) (d : Dev) : Dev := (rangeFrom 0 8).foldl (evalPort boundary) d

end Sys2Proof.Machine
end

