-- ==== Sys2Proof/Machine/Boundary.lean ====
section
/-!
DEFINITION. Sys2Proof/Machine/Boundary.lean: media time: boundary 0 of a start (02 R43), each further boundary with
what happens together at it (02 R35), the stop (R46), egress (R33), seals and cross-checks as commands, and the
device's own events of windows, delay lists, scrubs and self-tests.
-/
namespace Sys2Proof.Machine

/-! ### Boundary 0 (02 R43) -/

/-- What an earlier epoch left unsealed on core n has no window to seal into. DEDUCED: log entry 31. -/
def dropStale (d : Dev) (n : Nat) : Dev :=
  let c := coreOf d n
  let d := modCore d n (fun c => { c with ended := [] })
  let d := c.ended.foldl (fun d x => releaseFlow d x.thread) d
  match c.run, c.txn with
  | some t, some _ =>
    let d := releaseFlow (dropDispatch t (leaveStall (leaveLists d t) t) n) t
    audioRest (modThr d t (fun x => { x with st := .idle, stall := none })) t
  | _, _ => d

/-- The objects that a media start sets (R43, R55, R56; 03 R90, R92; 10 R283). DEDUCED: log entry 40. -/
def startObjects (d : Dev) : Dev :=
  let d := oSet (setMedia d 2) 0x2000 0x03 ((oGet d 0x2000 0x03 + 1) % 2 ^ 32)
  let d := oSet (oSet d 0x2000 0x04 0) 0x4C00 0x0B 0
  let d := oSet (oSet (oSet d 0x0110 0x07 0) 0x0110 0x08 0) 0x0110 0x09 0
  let d := oSet (oSet d 0x0100 0x01 0) 0x0100 0x02 0
  let d := oSet d 0x2020 0x05 (nominalRate (rs d 0x2010 0x01))
  { d with media := ⟨0, 0, false, none, false⟩, time := { d.time with anchor := none, hist := [] }, ver := { d.ver with before := [] } }

/-- Cores whose threads stop or resume at a boundary: those frozen or out of service (04 R143, R144, 16 R498). -/
def coreThreads (d : Dev) (n : Nat) : Dev :=
  let c := coreOf d n
  if coreFrozen d n || !coreIn d n then (if c.stopped then d else stopCore d n)
  else if c.stopped then resumeCore d n
  else d

/-- The window opens (R35; 10 R284, 16 R473, 12 R349). -/
def openAt (d : Dev) (k : Nat) (off : List Nat) : Dev :=
  let d := showFrames d
  let x := allocWindow d k off
  openWindow (chargePeaks x.1) k x.2

/-- What follows the opening at every boundary: converter states, notifications, the switch of a move, heads.
DESIGN CHOICE: log entry 15. -/
def boundaryRest (d : Dev) (k : Nat) : Dev :=
  let d := senseBoundary d (oGet d 0x8200 0x01)
  let d := (rangeFrom 0 8).foldl dacState d
  dmaPump (dropHeads (moveSwitch (evalNotes true d) k))

/-- Boundary 0. -/
def boundaryZero (d : Dev) : Dev :=
  let d := (rangeFrom 0 20).foldl dropStale d
  let d := startObjects d
  let d := (rangeFrom 0 16).foldl cascadeStop (startSaps (startAnalog (startParts d)))
  let d := applySealed (slackStart d)
  let d := foldBlock (formBlock d 0) 0
  let d := restoreAll (retireAll (thermEval d))
  let d := (rangeFrom 0 20).foldl coreThreads d
  let d := (rangeFrom 0 8).foldl removeEvents (sweepQueues d)
  boundaryRest (openAt d 0 []) 0

/-- MEDIA_LOCK_DECLARED (R43, R49). DEDUCED: log entry 31. -/
def execMediaLockDeclared (s : State) : Out :=
  onAwake (fun d =>
    if mediaState d = 1 then boundaryZero (setLock d 1)
    else if mediaState d = 2 then setLock d 1
    else d) s

/-! ### The stop (02 R46) -/

/-- Part event queues are emptied, with the count in EVENTS_DISCARDED; Root's note-offs of 04 R142 that wait are dropped
with the voices and not counted. DESIGN CHOICE: log entry 58. -/
def discardEvents (d : Dev) : Dev :=
  let n := ((d.stalk.queues.filter (fun c => c.1 < 256)).map (fun c => c.2.items.length)).sum
  let qs := (d.stalk.queues.map (·.1)).filter (· < 256)
  qs.foldl (fun d q => modQueue d q emptyItems) (bump d 0x2000 0x06 n)

/-- The answered requests at the head of port p's list are responded to. -/
def answerHeads : Nat → Dev → Nat → Dev
  | 0, d, _ => d
  | n + 1, d, p => match (port d p).outq with
    | .live f svc (some c) :: r => answerHeads n (respond (modPort d p (fun x => { x with outq := r })) p f svc c []) p
    | _ => d

/-- EVENT frames that wait enter nothing and are answered BUSY (11 R318). -/
def busyEvents (d : Dev) (p : Nat) : Dev :=
  let d := modPort d p (fun x => { x with outq := x.outq.map (fun y => match y with
    | .event w => .live w.frame 0x0A (some 7)
    | y => y) })
  answerHeads (port d p).outq.length d p

/-- Boundary m + 2 of a stop at boundary m. DEDUCED: log entry 30. -/
def mediaEnd (d : Dev) (k : Nat) : Dev :=
  let d := endVoices (stopSaps (stopAnalog d))
  let d := clearBus (clearBus d 0) 1
  let d := { d with gourd := { d.gourd with bus := [], declared := [], missing := [] }, spares := { d.spares with taking := [] } }
  let d := (rangeFrom 0 8).foldl busyEvents (discardEvents d)
  let d := (threadsWhere d (fun _ x => x.stall.isSome)).foldl endStalledPost d
  let d := { d with sense := { d.sense with strike := [] } }
  let d := if oGet d 0x0100 0x05 = 1 then oSet d 0x0100 0x05 0 else d
  let d := oSet d 0x2000 0x04 (k * blockLen d)
  let d := idleVdd (setMedia { d with media := { d.media with stopReq := false, stopM := none } } 0)
  switchWaiting ((rangeFrom 0 4).foldl dropMidiWait d)

/-! ### A boundary (02 R35, R37) -/

/-- Whether a commit into block k is still due (R37). -/
def commitsDue (d : Dev) (w : Nat) : Bool :=
  d.gourd.missing.contains w || d.gourd.declared.any (fun x => x.window == w) ||
  d.alloc.podTxns.any (fun x => x.window == w) ||
  (rangeFrom 0 20).any (fun n =>
    (coreOf d n).txn.any (fun x => x.window == w) || (coreOf d n).ended.any (fun x => x.window == w))

/-- A deadline miss of block k, whose window was k − 2. -/
def deadlineMiss (d : Dev) (k : Nat) : Dev :=
  if k < 2 then d
  else
    let w := k - 2
    let d := if commitsDue d w then voidAt (bump d 0x0110 0x02) 0 k else d
    { d with gourd := { d.gourd with
      declared := d.gourd.declared.filter (fun x => w < x.window), missing := d.gourd.missing.filter (fun x => w < x) } }

/-- Block k starts to leave; the switch due, what was sealed, and block k's codes and digest.
DEDUCED: log entry 30. -/
def blockLeaves (d : Dev) (k : Nat) : Dev :=
  let d := abandonChecks d
  let d := oSet { d with media := { d.media with block := k } } 0x2000 0x04 (k * blockLen d)
  let d := applySealed (switchDue d k)
  foldBlock (formBlock (deadlineMiss d k) k) k

/-- Faults, spares and freezes that take effect at a boundary. -/
def unitsAt (d : Dev) : Dev :=
  let d := restoreAll (retireAll (thermEval d))
  let d := (rangeFrom 0 20).foldl coreThreads d
  (rangeFrom 0 8).foldl removeEvents (sweepQueues d)

/-- Boundary k opens its window. -/
def boundaryOpen (d : Dev) (k : Nat) : Dev :=
  let before := enabledParts d.ver.active
  let d := blockLeaves d k
  let off := before.filter (fun p => !(enabledParts d.ver.active).contains p)
  boundaryRest (openAt (unitsAt (slackControl d k)) k off) k

/-- Boundaries m and m + 1 of a stop: no window opens; a part that a switch disables loses its events all the same (R303).
DEDUCED: log entry 30. -/
def boundaryShut (d : Dev) (k : Nat) : Dev :=
  let before := enabledParts d.ver.active
  let d := blockLeaves d k
  let d := (before.filter (fun p => !(enabledParts d.ver.active).contains p)).foldl disablePart d
  let d := fillLost (unitsAt (if d.media.stopM = some k then slackControl d k else d)) []
  let d := (threadsWhere d (fun _ x => x.releases ≠ [])).foldl (dropReleases k) (showFrames d)
  boundaryRest (schedule d) k

/-- Boundary m + 2 of a stop. DEDUCED: log entry 30. -/
def boundaryEnd (d : Dev) (k : Nat) : Dev :=
  let d := { abandonChecks d with media := { d.media with block := k } }
  boundaryRest (fillLost (unitsAt (mediaEnd (applySealed d) k)) []) k

/-- Boundary k. DEDUCED: log entry 30. -/
def boundaryAt (d : Dev) (k : Nat) : Dev :=
  match d.media.stopM with
  | some m => if m + 2 ≤ k then boundaryEnd d k else boundaryShut d k
  | none =>
    if d.media.stopReq then
      boundaryShut { d with media := { d.media with stopReq := false, stopM := some k } } k
    else boundaryOpen d k

/-- BOUNDARY: the next boundary, once every sample of the block before has left. -/
def execBoundary (s : State) : Out :=
  onAwake (fun d =>
    if mediaRuns d ∧ d.media.next = (d.media.block + 1) * blockLen d then boundaryAt d (d.media.block + 1) else d) s

/-- SAMPLE_EGRESS: the next sample of the block leaves the output mixer. -/
def execSampleEgress (s : State) : Out :=
  onAwake (fun d =>
    let n := d.media.next
    if mediaRuns d ∧ n < (d.media.block + 1) * blockLen d then
      let d := oSet { d with media := { d.media with next := n + 1 } } 0x2000 0x04 n
      let d := (rangeFrom 0 4).foldl sapSample ((rangeFrom 0 4).foldl (sapEgress n) d)
      egressAnalog ((rangeFrom 0 4).foldl (linkEgress n) d) n
    else d) s

/-! ### Units and windows -/

/-- SEAL of a unit, `ticks` fine-clock ticks before the commit deadline of its window (03 R74, R77).
DEDUCED: log entries 38, 51. -/
def execSeal (u : Nat) (ticks : Int) (s : State) : Out := onAwake (fun d => handOver (sealUnit d u ticks)) s

/-- CROSS_CHECK_RESULT for the Pod u whose seal is held (22 R651). -/
def execCrossCheckResult (u : Nat) (equal : Bool) (s : State) : Out := onAwake (fun d => crossCheck d u equal) s

/-- WATCHDOG for a unit (22 R649). -/
def execWatchdog (u : Nat) (s : State) : Out := onAwake (fun d => watchdog d u) s

/-- SELF_TEST_DONE of a unit (22 R664). DEDUCED: log entry 34. -/
def execSelfTestDone (u : Nat) (pass : Bool) (s : State) : Out := onAwake (fun d => endTest d u pass) s

/-- PERIODIC_SPARE_TEST: every spare starts its self-test (22 R666). DEDUCED: log entry 34. -/
def execPeriodicSpareTest (s : State) : Out :=
  onAwake (fun d =>
    if rs d 0x8000 0x0C = 0 then d
    else ((rangeFrom 0 0x54).filter (fun u => isUnit u && unitSt d u == 1)).foldl (startTest true) d) s

/-- DEFERRAL_TIMEOUT in part p at the latest window (10 R292). DESIGN CHOICE: log entry 15. -/
def execDeferralTimeout (p : Nat) (s : State) : Out :=
  onAwake (fun d =>
    if mediaRuns d then ((deferrals d).filter (fun x => x.1 = p)).foldl (refuseDue d.media.block) d else d) s

/-- ENV_SEGMENT_END of envelope e of the voice in slot n: a segment whose count has reached its length completes
(08 R234). DESIGN CHOICE: log entry 15. -/
def execEnvSegmentEnd (n e : Nat) (s : State) : Out :=
  onAwake (fun d => match mfind d.alloc.slots n with
    | none => d
    | some v => match v.envs[e]? with
      | none => d
      | some x =>
        if x.st = .run ∧ x.pendStart = false ∧ 0 < x.len ∧ x.len ≤ x.n then
          setSlot d n { v with envs := setNth v.envs e (envFinish v.lat e (timeScale v.held e) x) }
        else d) s

/-- FADE_LANE_END of the voice in lane n: its ramp has ended before the window at hand (10 R297).
DESIGN CHOICE: log entry 15. -/
def execFadeLaneEnd (n : Nat) (s : State) : Out :=
  onAwake (fun d => match mfind d.alloc.lanes n with
    | none => d
    | some v => match v.lane with
      | some (a, len) =>
        if mediaRuns d ∧ a + len ≤ (d.media.block + 2) * blockLen d then closeStreams (dropLane d n) v.serial else d
      | none => d) s

/-- DELAY_EXPIRY: the tick reaches `tick` µs of the Link cycle at hand (16 R483). DEDUCED: log entry 15. -/
def execDelayExpiry (tick : Nat) (s : State) : Out :=
  onAwake (fun d => if tick < cycleTick d + 125 then advanceTick d tick else d) s

/-- QPUT_RESUME on queue q (16 R493). -/
def execQputResume (q : Nat) (s : State) : Out :=
  onAwake (fun d => if q < 4096 then schedule (resumeProducer d q) else d) s

/-- GOURD_SCRUB of the word at address a; `last` ends a pass of its bank (13 R375). DEDUCED: log entry 50. -/
def execGourdScrub (a : Nat) (m : MemSt) (last : Bool) (s : State) : Out :=
  onAwake (fun d =>
    if a < 0x2000000 then
      let d := match m with
        | .corrected => gourdCe d a
        | .uncorrectable => gourdUe d a
        | _ => d
      if last then oSet (bump d (0x8180 + gBank a) 0x03) (0x8180 + gBank a) 0x02 (uptimeMs d) else d
    else d) s

end Sys2Proof.Machine
end

