-- ==== Sys2Proof/Machine/KernelCalls.lean ====
section
/-!
DEFINITION. Sys2Proof/Machine/KernelCalls.lean: the kernel calls of 14 R429-R431 with the semantics of 16
R468-R494 and 11 R329-R330. A retiring core whose dispatch one of them ends hands over (22 R663).
-/
namespace Sys2Proof.Machine

/-- KCALL 0 END: an audio thread's block waits for its seal; another thread's dispatch ends. -/
def execEnd (n : Nat) (s : State) : Out :=
  coreInstr n (fun d t =>
    let d := showConf d t
    match (coreOf d n).txn with
    | some x =>
      let d := modRegs d t (fun r => (loopStep r).1)
      let x := { x with ended := some (thr d t).regs }
      let d := modCore d n (fun c => { c with ended := c.ended ++ [x] })
      handOver (schedule (audioRest (coreIdle d n) t))
    | none => handOver (schedule (kernelRest (signalDone (endDispatch d n t) d.ver.active t) t false))) s

/-- KCALL 1 YIELD. -/
def execYield (n : Nat) (s : State) : Out :=
  coreInstr n (fun d t =>
    if inAudio d n then kret d n t 5
    else handOver (schedule (settle (endDispatch (setG1 d t 0) n t) t .ready))) s

/-- KCALL 2 WAIT. -/
def execWait (n : Nat) (s : State) : Out :=
  coreInstr n (fun d t =>
    if inAudio d n then kret d n t 5
    else
      let c := gArg d t 2
      if counterGranted d t c then
        let d := endDispatch (setG1 d t 0) n t
        handOver (schedule (if cnt d c = 0 then settle d t .ready
          else settle (modThr d t (fun x => { x with waitOn := some c })) t .waiting))
      else refuseCall d n t) s

/-- KCALL 3 SLEEP; a duration outside 1 to 16,777,215 has no stated length: a free value.
DESIGN CHOICE: log entry 14. -/
def execKSleep (n : Nat) (s : State) : Out :=
  coreInstr n (fun d t =>
    if inAudio d n then kret d n t 5
    else
      let us := gArg d t 2
      let (us, d) := if 1 ≤ us ∧ us ≤ 16777215 then (us, d)
                     else let (k, d) := takeFree d; (Config.freeNat k, d)
      let l := tf d 0x07 t
      let e := expiryOf d l us
      let d := endDispatch (setG1 d t 0) n t
      let d := settle d t .delayed
      handOver (schedule (if (thr d t).st = .disabled then d else delayInsert d l e t))) s

/-- Stage one Stalk operation of an audio thread (14 R424, 11 R330), or abandon the block. It takes one staging entry.
DESIGN CHOICE: log entry 59. -/
def stageOp (d : Dev) (n t : Nat) (o : StagedOp) (ret : Dev → Dev) : Dev :=
  match (coreOf d n).txn with
  | none => d
  | some x => match stage d n 1 (fun x => { x with ops := x.ops ++ [o] }) with
    | some d => ret d
    | none => handOver (abandon d n t x)

/-- KCALL 4 SIGNAL: a bus-channel counter is always refused (16 R472). -/
def execSignal (n : Nat) (s : State) : Out :=
  coreInstr n (fun d t =>
    let c := gArg d t 2
    if counterGranted (asWindow d n) t c ∧ 128 ≤ c then
      if inAudio d n then stageOp d n t (.signal c) (fun d => kret d n t 0)
      else schedule (kret (signalCnt d c) n t 0)
    else refuseCall d n t) s

/-- KCALL 5 QGET (16 R485, R486, R491). -/
def execQget (n : Nat) (m : MemSt) (s : State) : Out :=
  coreInstr n (fun d t =>
    let q := gArg d t 2
    if queueGranted (asWindow d n) t q then
      match flowFor (asWindow d n) q with
      | none => qgetNow d n t q m
      | some f =>
        match (flowOf d f).holder with
        | some h =>
          if h = t then qgetNow (takeFlow d f t (qgetFinds d n q)) n t q m
          else if (thr d t).flow.isSome then refuseCall (modRegs d t (fun r => vW r 0 0)) n t
          else
            let d := bump d (0x5C00 + f) 0x04
            let d := modFlow d f (fun x => { x with stalled := x.stalled ++ [t] })
            modThr d t (fun x => { x with st := .stalled, stall := some (.flow q m) })
        | none =>
          if (thr d t).flow.isSome then refuseCall (modRegs d t (fun r => vW r 0 0)) n t
          else qgetNow (takeFlow d f t (qgetFinds d n q)) n t q m
    else refuseCall (modRegs d t (fun r => vW r 0 0)) n t) s

/-- KCALL 6 QPUT. The count an audio thread reads is unstated, since its put lands with the seal: a free value.
DESIGN CHOICE: log entry 14. -/
def execQput (n : Nat) (s : State) : Out :=
  coreInstr n (fun d t =>
    let q := gArg d t 2
    let v := vR (thr d t).regs 0
    if queueGranted (asWindow d n) t q then
      if inAudio d n then
        let (k, d) := takeFree d
        stageOp d n t (.put q v) (fun d => kret d n t (Config.freeNat k))
      else if 0 < qRoom d q then
        let d := qFill d q v
        kret d n t (qCount d q)
      else stallFor d t q (.put q v)
    else refuseCall d n t) s

/-- KCALL 7 QCOUNT: direct in an audio thread. -/
def execQcount (n : Nat) (s : State) : Out :=
  coreInstr n (fun d t =>
    let q := gArg d t 2
    if queueGranted (asWindow d n) t q then kret (directShared d n) n t (qCount d q) else refuseCall d n t) s

/-- KCALL 8 POST. A thread of a frozen core posts nothing (11 R331); what a call that fails no check then returns is unstated: a free value.
DESIGN CHOICE: log entry 59. -/
def execPost (n : Nat) (s : State) : Out :=
  coreInstr n (fun d t =>
    let p := gArg d t 2
    let six := gArg d t 3 + 2 ^ 32 * gArg d t 4
    let u0 := gArg d t 5
    let u1 := if umpMt u0 = 4 then gArg d t 6 else 0
    let code := postCode d p six u0
    if code ≠ 0 then kret d n t code
    else if coreFrozen d n then
      let (k, d) := takeFree d
      kret d n t (Config.freeNat k)
    else if rangeTakes d p u0 u1 = false then kret d n t 0
    else
      let it : EvItem := ⟨p, 0, six, (umpClass u0).getD 0, 0x100 + t, u0, u1⟩
      if inAudio d n then stageOp d n t (.post it) (fun d => kret d n t 0)
      else if 0 < qRoom d p then kret (evEnterAll d false [it]) n t 0
      else stallFor d t p (.post it)) s

/-- KCALL 9 BLOCK: the first SIX of the thread's block, or SIX_NOW. -/
def execBlock (n : Nat) (s : State) : Out :=
  coreInstr n (fun d t =>
    let six := match (coreOf d n).txn with
      | some x => (x.window + 2) * blockLen d
      | none => sixNow d
    let d := modRegs d t (fun r => gW r 2 (BitVec.ofNat 32 (six / 2 ^ 32)))
    kret d n t six) s

/-- KCALL above 9: returns 6. -/
def execKcallUndefined (n : Nat) (_num : BitVec 8) (s : State) : Out := coreInstr n (fun d t => kret d n t 6) s

end Sys2Proof.Machine
end

