-- ==== Sys2Proof/Machine/MarrowAccess.lean ====
section
/-!
DEFINITION. Sys2Proof/Machine/MarrowAccess.lean: loads, stores, atomics, commit-add and program memory of a Marrow
core (15 R449-R456), and BEXP and BNORM (15 R463).
-/
namespace Sys2Proof.Machine

/-- An instruction ends after a store: the thread goes on, after a refused access too (04 R143), unless its block
was abandoned, which ends the dispatch of a retiring core (22 R663). -/
def afterStore (n t : Nat) : StoreRes → Dev
  | .done d => complete d n t
  | .refused d => complete d n t
  | .abandoned d => handOver d

/-- A load of len bytes; `put` writes the bytes' value. A refused read returns 0 (04 R138); the address update
happens even then (15 R449). -/
def loadInstr (n len : Nat) (o : MemOp) (m : MemSt) (put : Nat → Regs → Regs) (s : State) : Out :=
  guarded n (if len = 8 then memPairOk o else memOk o) (coreInstr n (fun d t =>
    let (caddr, r') := memAddr (thr d t).regs o.a o.mode o.imm
    let x := loadAt (modRegs d t (fun _ => r')) n t caddr len o.direct m
    complete (modRegs x.2 t (put (fromLE (x.1.getD [])))) n t)) s

/-- A scalar store of the low len bytes of Gr. -/
def storeInstr (n len : Nat) (o : MemOp) (m : MemSt) (get : Regs → Nat) (s : State) : Out :=
  guarded n (if len = 8 then memPairOk o else memOk o) (coreInstr n (fun d t =>
    let r := (thr d t).regs
    let (caddr, r') := memAddr r o.a o.mode o.imm
    afterStore n t (storeAt (modRegs d t (fun _ => r')) n t caddr (toLE len (get r)) o.direct m))) s

/-- LDB. -/
def execLdb (n : Nat) (o : MemOp) (m : MemSt) (s : State) : Out :=
  loadInstr n 1 o m (fun v r => gW r o.r ((BitVec.ofNat 8 v).signExtend 32)) s
/-- LDBU. -/
def execLdbu (n : Nat) (o : MemOp) (m : MemSt) (s : State) : Out :=
  loadInstr n 1 o m (fun v r => gW r o.r (BitVec.ofNat 32 v)) s
/-- LDH. -/
def execLdh (n : Nat) (o : MemOp) (m : MemSt) (s : State) : Out :=
  loadInstr n 2 o m (fun v r => gW r o.r ((BitVec.ofNat 16 v).signExtend 32)) s
/-- LDHU. -/
def execLdhu (n : Nat) (o : MemOp) (m : MemSt) (s : State) : Out :=
  loadInstr n 2 o m (fun v r => gW r o.r (BitVec.ofNat 32 v)) s
/-- LDW. -/
def execLdw (n : Nat) (o : MemOp) (m : MemSt) (s : State) : Out :=
  loadInstr n 4 o m (fun v r => gW r o.r (BitVec.ofNat 32 v)) s
/-- LDD into a register pair. -/
def execLdd (n : Nat) (o : MemOp) (m : MemSt) (s : State) : Out :=
  loadInstr n 8 o m (fun v r => pairW r o.r v) s
/-- STB. -/
def execStb (n : Nat) (o : MemOp) (m : MemSt) (s : State) : Out := storeInstr n 1 o m (fun r => (gR r o.r).toNat) s
/-- STH. -/
def execSth (n : Nat) (o : MemOp) (m : MemSt) (s : State) : Out := storeInstr n 2 o m (fun r => (gR r o.r).toNat) s
/-- STW. -/
def execStw (n : Nat) (o : MemOp) (m : MemSt) (s : State) : Out := storeInstr n 4 o m (fun r => (gR r o.r).toNat) s
/-- STD of a register pair. -/
def execStd (n : Nat) (o : MemOp) (m : MemSt) (s : State) : Out := storeInstr n 8 o m (fun r => pairR r o.r) s

/-- The V register that bits [25:22] of a format-M word name (15 R450). -/
def vField (r : BitVec 5) : BitVec 4 := r.extractLsb' 1 4

/-- VLD: 16 bytes, lane 0 lowest. -/
def execVld (n : Nat) (o : MemOp) (m0 m1 : MemSt) (s : State) : Out :=
  guarded n (memVecOk o) (coreInstr n (fun d t =>
    let (caddr, r') := memAddr (thr d t).regs o.a o.mode o.imm
    let x := vloadAt (modRegs d t (fun _ => r')) n t caddr o.direct m0 m1
    complete (modRegs x.2 t (fun r => vW r (vField o.r) (bytesVec x.1.1))) n t)) s
/-- VST. -/
def execVst (n : Nat) (o : MemOp) (m0 m1 : MemSt) (s : State) : Out :=
  guarded n (memVecOk o) (coreInstr n (fun d t =>
    let r := (thr d t).regs
    let (caddr, r') := memAddr r o.a o.mode o.imm
    afterStore n t (vstoreAt (modRegs d t (fun _ => r')) n t caddr (vecBytes (vR r (vField o.r))) o.direct m0 m1))) s

/-- The address of a format-A access and the registers after mode 1 (15 R453). -/
def atomAddr (r : Regs) (a : BitVec 3) (upd : Bool) : Nat × Regs :=
  ((aR r 0 a).toNat, if upd then postMod r a (aR r 3 a).toInt else r)

/-- A direct atomic: the old value to `put`, 0 with UE or when refused. `quiet` is the ADD whose result reaches no
register (14 R424). -/
def atomicInstr (n len : Nat) (o : AtomOp) (m : MemSt) (quiet swap64 : Bool)
    (f : Regs → Nat → Nat) (put : Nat → Regs → Regs) (d : Dev) (t : Nat) : Dev :=
  let r := (thr d t).regs
  let (caddr, r') := atomAddr r o.a o.upd
  let d := modRegs d t (fun _ => r')
  match atomicAddr d n caddr len with
  | none => complete (modRegs (refuse d n 0 caddr) t (put 0)) n t
  | some a =>
    let d := if quiet then d else directShared d n
    match atomicDirect d a len (f r) swap64 m with
    | (some old, d) => complete (modRegs d t (put old)) n t
    | (none, d) => complete (modRegs (ueRead d n t) t (put 0)) n t

/-- ADD in either width: transactional in an audio thread with D = 0 (15 R454). -/
def addInstr (n len : Nat) (o : AtomOp) (m : MemSt) (val : Regs → Nat) (put : Nat → Regs → Regs) (s : State) : Out :=
  coreInstr n (fun d t =>
    if transactional d n o.direct then
      let r := (thr d t).regs
      let (caddr, r') := atomAddr r o.a o.upd
      let d := modRegs d t (fun _ => r')
      match atomicAddr d n caddr len, (coreOf d n).txn with
      | some a, some x => match stageAdd d n a len (val r) with
        | some d => complete (modRegs d t (put 0)) n t
        | none => handOver (abandon d n t x)
      | _, _ => complete (modRegs (refuse d n 0 caddr) t (put 0)) n t
    else atomicInstr n len o m (o.d = 0) false (fun r old => old + val r) put d t) s

/-- ADD on a 32-bit word. -/
def execAtomicAdd (n : Nat) (o : AtomOp) (m : MemSt) (s : State) : Out :=
  addInstr n 4 o m (fun r => (gR r o.s).toNat) (fun v r => gW r o.d (BitVec.ofNat 32 v)) s
/-- ADD.D64 on register pairs. -/
def execAtomicAddD64 (n : Nat) (o : AtomOp) (m : MemSt) (s : State) : Out :=
  guarded n (atomPairOk o) (addInstr n 8 o m (fun r => pairR r o.s) (fun v r => pairW r o.d v)) s
/-- SWAP: direct in every thread. -/
def execSwap (n : Nat) (o : AtomOp) (m : MemSt) (s : State) : Out :=
  coreInstr n (atomicInstr n 4 o m false false (fun r _ => (gR r o.s).toNat) (fun v r => gW r o.d (BitVec.ofNat 32 v))) s
/-- SWAP.D64: a 64-bit swap clears a poison (13 R374). -/
def execSwapD64 (n : Nat) (o : AtomOp) (m : MemSt) (s : State) : Out :=
  guarded n (atomPairOk o)
    (coreInstr n (atomicInstr n 8 o m false true (fun r _ => pairR r o.s) (fun v r => pairW r o.d v))) s
/-- CAS: compare Gs, new value G(s+1). -/
def execCas (n : Nat) (o : AtomOp) (m : MemSt) (s : State) : Out :=
  guarded n (casOk o) (coreInstr n (atomicInstr n 4 o m false false
    (fun r old => if old = (gR r o.s).toNat then (gR r (o.s + 1)).toNat else old)
    (fun v r => gW r o.d (BitVec.ofNat 32 v)))) s
/-- CAS.D64: compare pair Gs, new value pair G(s+2). -/
def execCasD64 (n : Nat) (o : AtomOp) (m : MemSt) (s : State) : Out :=
  guarded n (casPairOk o) (coreInstr n (atomicInstr n 8 o m false false
    (fun r old => if old = pairR r o.s then pairR r (o.s + 2) else old)
    (fun v r => pairW r o.d v))) s
/-- CADD (15 R455). -/
def execCadd (n : Nat) (rs : BitVec 5) (a : BitVec 3) (upd : Bool) (s : State) : Out :=
  coreInstr n (fun d t =>
    let r := (thr d t).regs
    let (caddr, r') := atomAddr r a upd
    afterStore n t (cadd (modRegs d t (fun _ => r')) n t (gR r rs).toNat caddr)) s

/-- LDP: one word of program memory; refused in an audio thread (14 R414, 15 R456). -/
def execLdp (n : Nat) (g : BitVec 5) (bank : Bool) (rs : BitVec 5) (word : BitVec 13) (s : State) : Out :=
  coreInstr n (fun d t =>
    if (coreOf d n).txn.isSome then
      complete (modRegs (refuse d n 2 (thr d t).regs.pc.toNat) t (fun r => gW r g 0)) n t
    else
      complete (modRegs d t (fun r =>
        gW r g (progWord d n (b2n bank) ((gR r rs).toNat + word.toNat)))) n t) s

/-- Write one program word of a core. -/
def progStore (d : Dev) (n : Nat) (bank : Bool) (addr : Nat) (v : Word) : Dev :=
  modCore d n (fun c => if bank then { c with progB := mput 0 c.progB (addr % 8192) v }
                        else { c with progA := mput 0 c.progA (addr % 8192) v })

/-- STP. DESIGN CHOICE: log entry 6. -/
def execStp (n : Nat) (g : BitVec 5) (bank : Bool) (rs : BitVec 5) (word : BitVec 13) (s : State) : Out :=
  coreInstr n (fun d t =>
    let r := (thr d t).regs
    if (coreOf d n).txn.isSome then complete (refuse d n 2 r.pc.toNat) n t
    else complete (progStore d n bank ((gR r rs).toNat + word.toNat) (gR r g)) n t) s

/-- BEXP: HEAD := min(HEAD, h) (14 R409). -/
def execBexp (n : Nat) (va : BitVec 4) (s : State) : Out :=
  regInstr n (fun r => { r with bx := bxOf (min (bxHead r.bx) (vecHeadroom (vR r va))) (bxScale r.bx) }) s

/-- BNORM (14 R410): n1 + 1 vectors to g bits of headroom. A refused group ends it with BX as at issue. -/
def execBnorm (n : Nat) (a : BitVec 3) (g : BitVec 4) (n1 : BitVec 8) (ms : List MemSt) (s : State) : Out :=
  coreInstr n (fun d t =>
    let bx := (thr d t).regs.bx
    let sh : Int := (bxHead bx : Int) - g.toNat
    let (d, ok, gone) := bnormGroups n t a sh ms (n1.toNat + 1) d
    if gone then handOver d
    else if ok then
      complete (modRegs d t (fun r => { r with bx := bxOf g.toNat (bxScale bx - BitVec.ofInt 8 sh) })) n t
    else complete d n t) s

end Sys2Proof.Machine
end

