-- ==== Sys2Proof/Machine/MarrowVector.lean ====
section
/-!
DEFINITION. Sys2Proof/Machine/MarrowVector.lean: vector arithmetic, multiply-accumulate, extracts and lane transfers
of a Marrow core (14 R404-R408; 15 R457-R462).
-/
namespace Sys2Proof.Machine

/-- A lane-by-lane form of VALU (15 R457); no flag of ST is written. -/
def valu (n : Nat) (vd va vb : BitVec 4) (f : Int → Int → Int) (s : State) : Out :=
  regInstr n (fun r =>
    let a := vR r va
    let b := vR r vb
    vW r vd (vOf (fun l => BitVec.ofInt 16 (f (lane a l).toInt (lane b l).toInt)))) s

/-- A bitwise form of VALU. -/
def valuBits (n : Nat) (vd va vb : BitVec 4) (f : BitVec 128 → BitVec 128 → BitVec 128) (s : State) : Out :=
  regInstr n (fun r => vW r vd (f (vR r va) (vR r vb))) s

/-- VADD. -/
def execVadd (n : Nat) (vd va vb : BitVec 4) (s : State) : Out := valu n vd va vb (fun a b => a + b) s
/-- VADDS. -/
def execVadds (n : Nat) (vd va vb : BitVec 4) (s : State) : Out := valu n vd va vb (fun a b => sat (a + b) 16) s
/-- VSUB. -/
def execVsub (n : Nat) (vd va vb : BitVec 4) (s : State) : Out := valu n vd va vb (fun a b => a - b) s
/-- VSUBS. -/
def execVsubs (n : Nat) (vd va vb : BitVec 4) (s : State) : Out := valu n vd va vb (fun a b => sat (a - b) 16) s
/-- VMULQ: sat(rnd_conv(2·a·b, 16), 16). -/
def execVmulq (n : Nat) (vd va vb : BitVec 4) (s : State) : Out :=
  valu n vd va vb (fun a b => sat (rndConv (2 * a * b) 16) 16) s
/-- VAND. -/
def execVand (n : Nat) (vd va vb : BitVec 4) (s : State) : Out := valuBits n vd va vb (fun a b => a &&& b) s
/-- VOR. -/
def execVor (n : Nat) (vd va vb : BitVec 4) (s : State) : Out := valuBits n vd va vb (fun a b => a ||| b) s
/-- VXOR. -/
def execVxor (n : Nat) (vd va vb : BitVec 4) (s : State) : Out := valuBits n vd va vb (fun a b => a ^^^ b) s
/-- VSHL by k, wrapping. -/
def execVshl (n : Nat) (vd va : BitVec 4) (k : BitVec 4) (s : State) : Out :=
  valu n vd va va (fun a _ => a * (2 ^ k.toNat : Nat)) s
/-- VSHLS by k, saturating. -/
def execVshls (n : Nat) (vd va : BitVec 4) (k : BitVec 4) (s : State) : Out :=
  valu n vd va va (fun a _ => sat (a * (2 ^ k.toNat : Nat)) 16) s
/-- VSAR by k. -/
def execVsar (n : Nat) (vd va : BitVec 4) (k : BitVec 4) (s : State) : Out :=
  valu n vd va va (fun a _ => a / (2 ^ k.toNat : Nat)) s
/-- VSRR by k, rounding. -/
def execVsrr (n : Nat) (vd va : BitVec 4) (k : BitVec 4) (s : State) : Out :=
  valu n vd va va (fun a _ => rndConv a k.toNat) s
/-- VMIN, signed. -/
def execVmin (n : Nat) (vd va vb : BitVec 4) (s : State) : Out := valu n vd va vb (fun a b => if a < b then a else b) s
/-- VMAX, signed. -/
def execVmax (n : Nat) (vd va vb : BitVec 4) (s : State) : Out := valu n vd va vb (fun a b => if a < b then b else a) s
/-- VABS. -/
def execVabs (n : Nat) (vd va : BitVec 4) (s : State) : Out := valu n vd va va (fun a _ => sat (if a < 0 then -a else a) 16) s
/-- VNEG. -/
def execVneg (n : Nat) (vd va : BitVec 4) (s : State) : Out := valu n vd va va (fun a _ => sat (-a) 16) s
/-- VMOV. -/
def execVmov (n : Nat) (vd va : BitVec 4) (s : State) : Out := regInstr n (fun r => vW r vd (vR r va)) s

/-! ### Multiply-accumulate (15 R458, R459) -/

/-- The exact new value of lane l before it is narrowed. -/
def macLane (r : Regs) (o : MacOp) (neg : Bool) (l : Nat) : Int :=
  let a := (lane (vR r o.va) l).toInt
  let b := (lane (vR r o.vb) (if o.l then o.k.toNat else l)).toInt
  let p := if o.i then a * b else 2 * a * b
  let p := if neg then -p else p
  if o.z then p else (acLane (acR r o.ac) l).toInt + p

/-- The wrapping or saturating lane forms: OV or SAT of the lanes that left the 40-bit range. -/
def mac (o : MacOp) (neg saturate : Bool) (r : Regs) : Regs :=
  let x := macLane r o neg
  let r' := acW r o.ac (acOf (fun l => if saturate then BitVec.ofInt 40 (sat (x l) 40) else BitVec.ofInt 40 (x l)))
  let out (l : Nat) : Bool := overW 40 (x l)
  { r' with st := if saturate then stickySAT r.st out else stickyOV r.st out }

/-- VMAC. -/
def execVmac (n : Nat) (o : MacOp) (s : State) : Out := guarded n (macOk o) (regInstr n (mac o false false)) s
/-- VMSU. -/
def execVmsu (n : Nat) (o : MacOp) (s : State) : Out := guarded n (macOk o) (regInstr n (mac o true false)) s
/-- VMACS. -/
def execVmacs (n : Nat) (o : MacOp) (s : State) : Out := guarded n (macOk o) (regInstr n (mac o false true)) s
/-- VMSUS. -/
def execVmsus (n : Nat) (o : MacOp) (s : State) : Out := guarded n (macOk o) (regInstr n (mac o true true)) s

/-- Even register of the pair a wide form names. -/
def wideAc (odd : Bool) : BitVec 2 := if odd then 2 else 0

/-- One wide lane of a wide multiply-accumulate. -/
def wmacLane (o : WMacOp) (neg saturate : Bool) (r : Regs) (w : Nat) : Regs :=
  let ac := wideAc o.hiPair
  let e := if o.h then w + 2 else w
  let p := 2 * (elem (vR r o.va) e).toInt * (elem (vR r o.vb) e).toInt
  let p := if neg then -p else p
  let x := if o.z then p else wideR r ac w + p
  let r' := wideW r ac w (if saturate then sat x 80 else x)
  let out (l : Nat) : Bool := overW 80 x && l / 4 == w
  { r' with st := if saturate then stickySAT r.st out else stickyOV r.st out }

/-- Both wide lanes. -/
def wmac (o : WMacOp) (neg saturate : Bool) (r : Regs) : Regs :=
  wmacLane o neg saturate (wmacLane o neg saturate r 0) 1

/-- VWMAC. -/
def execVwmac (n : Nat) (o : WMacOp) (s : State) : Out := regInstr n (wmac o false false) s
/-- VWMSU. -/
def execVwmsu (n : Nat) (o : WMacOp) (s : State) : Out := regInstr n (wmac o true false) s
/-- VWMACS. -/
def execVwmacs (n : Nat) (o : WMacOp) (s : State) : Out := regInstr n (wmac o false true) s
/-- VWMSUS. -/
def execVwmsus (n : Nat) (o : WMacOp) (s : State) : Out := regInstr n (wmac o true true) s

/-! ### Extracts and accumulators (14 R407, R408; 15 R460, R461) -/

/-- An extract of every lane: k is at most 15, so the count 16 − k is positive. -/
def extractLanes (vd : BitVec 4) (ac : BitVec 2) (k : Int) (clear : Bool) (r : Regs) : Regs :=
  let x (l : Nat) : Int := rndConv (acLane (acR r ac) l).toInt (16 - k).toNat
  let r' := vW r vd (vOf (fun l => BitVec.ofInt 16 (sat (x l) 16)))
  let r' := if clear then acW r' ac 0 else r'
  { r' with st := stickySAT r.st (fun l => overW 16 (x l)) }

/-- A wide extract of one element. -/
def extractWide (vd : BitVec 4) (ac : BitVec 2) (h : Bool) (k : Int) (clear : Bool) (r : Regs) (w : Nat) : Regs :=
  let x := rndConv (wideR r ac w) (32 - k).toNat
  let e := if h then w + 2 else w
  let r' := vW r vd (setElem (vR r vd) e (BitVec.ofInt 32 (sat x 32)))
  let r' := if clear then wideW r' ac w 0 else r'
  { r' with st := stickySAT r.st (fun l => overW 32 x && l / 4 == w) }

/-- VEXTR of the lanes. -/
def execVextr (n : Nat) (o : ExtrOp) (s : State) : Out :=
  guarded n (extrOk o) (regInstr n (fun r =>
    if o.w then
      extractWide o.vd o.ac o.h o.k.toInt o.c (extractWide o.vd o.ac o.h o.k.toInt o.c r 0) 1
    else extractLanes o.vd o.ac o.k.toInt o.c r)) s

/-- ACLR. -/
def execAclr (n : Nat) (ac : BitVec 2) (s : State) : Out := regInstr n (fun r => acW r ac 0) s
/-- ACLD: lane × 2^(16 − k). -/
def execAcld (n : Nat) (ac : BitVec 2) (va : BitVec 4) (k : BitVec 5) (s : State) : Out :=
  guarded n (kOk k) (regInstr n (fun r => acW r ac (acOf (fun l =>
    BitVec.ofInt 40 ((lane (vR r va) l).toInt * (2 ^ (16 - k.toInt).toNat : Nat)))))) s

/-! ### Lane transfers (15 R462) -/

/-- VINS. -/
def execVins (n : Nat) (vd : BitVec 4) (g : BitVec 5) (k : BitVec 3) (s : State) : Out :=
  regInstr n (fun r => vW r vd (setLane (vR r vd) k.toNat ((gR r g).extractLsb' 0 16))) s
/-- VEXT, sign-extended. -/
def execVext (n : Nat) (g : BitVec 5) (va : BitVec 4) (k : BitVec 3) (s : State) : Out :=
  regInstr n (fun r => gW r g ((lane (vR r va) k.toNat).signExtend 32)) s
/-- VBC. -/
def execVbc (n : Nat) (vd : BitVec 4) (g : BitVec 5) (s : State) : Out :=
  regInstr n (fun r => vW r vd (vOf (fun _ => (gR r g).extractLsb' 0 16))) s
/-- VROT. -/
def execVrot (n : Nat) (vd va : BitVec 4) (k : BitVec 3) (s : State) : Out :=
  regInstr n (fun r => vW r vd (vOf (fun l => lane (vR r va) ((l + k.toNat) % 8)))) s
/-- VINSW: lane[2] is 0. -/
def execVinsw (n : Nat) (vd : BitVec 4) (g : BitVec 5) (e : BitVec 2) (s : State) : Out :=
  regInstr n (fun r => vW r vd (setElem (vR r vd) e.toNat (gR r g))) s
/-- VEXTW. -/
def execVextw (n : Nat) (g : BitVec 5) (va : BitVec 4) (e : BitVec 2) (s : State) : Out :=
  regInstr n (fun r => gW r g (elem (vR r va) e.toNat)) s
/-- VSPL. -/
def execVspl (n : Nat) (vd va : BitVec 4) (k : BitVec 3) (s : State) : Out :=
  regInstr n (fun r => vW r vd (vOf (fun _ => lane (vR r va) k.toNat))) s
/-- VSUM: the exact sum of the eight lanes. -/
def execVsum (n : Nat) (g : BitVec 5) (va : BitVec 4) (s : State) : Out :=
  regInstr n (fun r => gW r g (BitVec.ofInt 32
    ((rangeFrom 0 8).foldl (fun t l => t + (lane (vR r va) l).toInt) 0))) s

end Sys2Proof.Machine
end

