-- ==== Sys2Proof/Machine/Writes.lean ====
section
/-!
DEFINITION. Sys2Proof/Machine/Writes.lean: the effect of an accepted write on the object it names: RS objects in the
staging version (04 R131), selectors (05 R152), RW and WO objects at the end of their arbitration cycle (04 R127).
-/
namespace Sys2Proof.Machine

/-! ### Objects of cores that are not in service (14 R432) -/

/-- The core whose object it is. -/
def coreObject (idx : Nat) : Option Nat := if 0x5000 ≤ idx ∧ idx < 0x5280 then some ((idx - 0x5000) / 32) else none

/-- The object belongs to a core that is not in service. -/
def coreAway (d : Dev) (idx : Nat) : Bool := match coreObject idx with
  | some n => !coreIn d n
  | none => false

/-! ### RS objects (04 R130, R131; 09 R255-R258) -/

/-- A write of CAP_DIV of a timer restarts its edge count at the switch, whatever value it writes (21 R627). -/
def markCap (v : Version) (idx sub : Nat) : Version :=
  let n := idx - 0x7C00
  if 0x7C00 ≤ idx ∧ n < 16 ∧ sub = 0x0C ∧ v.caps.contains n = false then { v with caps := v.caps ++ [n] } else v

/-- The value bytes of an RS object enter a version. A NAME is padded with zero bytes. -/
def putRs (v : Version) (r : ObjRef) (idx sub inst off : Nat) (data : List Byte) : Version :=
  match r.row.ty with
  | .dom _ =>
    if idx < 0x2000 then
      let l := (idx - 0x1100) / 16
      let slots := ((rangeFrom 0 data.length).zip data).foldl (fun m x =>
        let o := off + x.1
        mset (if o % 2 = 0 then 1#8 else 0#8) m (1920 * l + o) x.2) v.slots
      { v with slots := slots }
    else recPuts v (idx - 0x4000) off data
  | .str n => recPuts v inst r.recAt (data ++ List.replicate (n - data.length) 0#8)
  | _ => if r.row.win = .program then recPuts v inst r.recAt data else markCap (vSet v idx sub (fromLE data) inst) idx sub

/-- A staged write of port p: the code, and the state. -/
def stagedWrite (d : Dev) (p : Nat) (r : ObjRef) (idx sub inst off : Nat) (data : List Byte) : Nat × Dev :=
  if coreAway d idx then (7, d)
  else
    let c := stageCode d p
    if c ≠ 0 then (c, d)
    else
      let x := openStaging d p
      (0, putStaging x.2 (putRs x.1 r idx sub inst off data))

/-! ### Selectors (05 R152, 09 R258, 10 R305, 16 R501) -/

/-- Port p selects instance v of a window. -/
def select (d : Dev) (p : Nat) (w : Win) (v : Nat) : Dev :=
  modPort d p (fun x => match w with
    | .thread => { x with selThread := v }
    | .queue => { x with selQueue := v }
    | .region => { x with selRegion := v }
    | .counter => { x with selCounter := v }
    | .program => { x with selProgram := v }
    | .voice => { x with selVoice := v }
    | .none => x)

/-! ### RW and WO objects -/

/-- Bytes written into a program bank of words (14 R413). -/
def bankPut : AMap Word → Nat → List Byte → AMap Word
  | m, _, [] => m
  | m, o, b :: r =>
    let w := (mget 0 m (o / 4)).toNat
    let k := 256 ^ (o % 4)
    let x := w - (w / k % 256) * k + b.toNat * k
    bankPut (mput 0 m (o / 4) (BitVec.ofNat 32 x)) (o + 1) r

/-- Bytes written into a core's banks or its data memory. -/
def corePut (d : Dev) (idx off : Nat) (data : List Byte) : Dev :=
  modCore d ((idx - 0x5000) / 32) (fun c => match idx % 32 with
    | 1 => { c with progA := bankPut c.progA off data }
    | 2 => { c with progB := bankPut c.progB off data }
    | _ => { c with mem := mwrite c.mem off data })

/-- Whether a write of a program bank is refused (14 R418). -/
def bankBusy (d : Dev) (idx : Nat) : Bool :=
  let n := (idx - 0x5000) / 32
  let b := idx % 32 - 1
  let bank (v : Version) : Nat := vGet v (0x5000 + 32 * n) 0x01
  let next := match d.ver.stage, d.ver.staging, d.ver.previous with
    | .commitPending, some v, _ => bank v == b
    | .revertPending, _, some v => bank v == b
    | _, _, _ => false
  bank d.ver.active == b || next || fetching d n == b + 1

/-- A unit code of the spare objects at 0x8100 (05 R169). -/
def unitOf (idx : Nat) : Nat := idx - 0x8100

/-- Unit u retires at the next boundary (22 R663). DEDUCED: log entry 33. -/
def retire (d : Dev) (u : Nat) : Nat × Dev :=
  if retireOk d u then (0, { d with spares := { d.spares with retire := d.spares.retire.filter (· ≠ u) ++ [u] } })
  else (7, d)

/-- The self-test of unit u starts (22 R664). DEDUCED: log entry 33. -/
def readmit (d : Dev) (u : Nat) : Nat × Dev := if readmitOk d u then (0, startTest false d u) else (7, d)

/-- REJOIN of node n by the head of port l (17 R537): the next header carries it, where the port is up and n is in the chain.
DEDUCED: log entry 61. -/
def rejoin (d : Dev) (idx : Nat) : Nat × Dev :=
  let l := (idx - 0x1140) / 8
  let n := (idx - 0x1140) % 8
  if chainMode d l && isHead d l then
    if !linkUp d l || !inChain d l n then (0, d) else
    (0, modLink (rejoinNode d l n) l (fun x => { x with cmds := x.cmds ++ [(n, 3)] }))
  else (3, d)

/-- Port p's RESET_REQ or SLEEP is accepted: the reset or the sleep follows its answer (23 R681, R686). -/
def askPower (d : Dev) (p : Nat) (f : Power → Power) : Dev :=
  let x := f d.power
  { d with power := { x with askers := x.askers ++ [p] } }

/-- SLEEP (23 R686). -/
def sleepReq (d : Dev) (p : Nat) : Nat × Dev :=
  if sleepBusy d then (7, d) else (0, askPower d p (fun x => { x with sleepReq := true }))

/-- DATA of region r (12 R342, R344), also beyond CAPACITY and in the destination of a move. DESIGN CHOICE: log entry 70. -/
def dataPut (d : Dev) (r off : Nat) (data : List Byte) : Nat × Dev :=
  let a := rgn d.ver.active r 0x02 + off
  if covered d a data.length then (7, d) else (0, tuberWrite d a data)

/-- A DATA_MEM write from offset `off` that reaches into the constant area (14 R422), as it is when a segment is executed and when the
write is applied. -/
def intoConst (d : Dev) (idx off : Nat) : Bool :=
  decide (0x5000 ≤ idx) && decide (idx < 0x5280) && idx % 32 == 4 && decide (off < rs d (idx - 1) 0x19)

/-- Apply a live write of port p to instance `inst` of idx.sub: the answer's code and the state. `off` is the offset of a byte
block, or for FAULT_CLEAR the FAULT_SEQ at execution (05 R167). DEDUCED: log entry 17. -/
def applyLive (d : Dev) (p idx sub inst off : Nat) (data : List Byte) : Nat × Dev :=
  let v := fromLE data
  if idx = 0x0100 then (let x := digestMark d v; (if x.1 then 0 else 4, x.2))
  else if idx = 0x0300 then (0, clearFaults d off)
  else if idx < 0x2000 then rejoin d idx
  else if idx = 0x2000 then (0, mediaRun d v)
  else if idx = 0x2010 then (0, reselect d)
  else if idx = 0x2020 then (if linkTimeBusy d then (7, d) else (0, setLinkTime d v))
  else if idx < 0x5800 then (if intoConst d idx off then (4, d) else (0, corePut d idx off data))
  else if idx = 0x5800 then (if inst < 128 then (3, d) else (0, setCnt d inst v))
  else if idx = 0x5801 then (0, if sub = 5 then setLevel d inst v else kick d inst)
  else if idx = 0x5A01 then
    (if qKind d inst = 1 ∨ qKind d inst = 2 then (3, d) else (0, flushQueue d inst))
  else if idx = 0x6100 then
    (0, gWrite d (if sub = 0x10 then 0x00818000 + off else 0x00808000 + 1024 * (sub - 0x11) + off) data)
  else if idx = 0x6801 then (if sub = 0x0B then verifyGo d inst else dataPut d inst off data)
  else if idx = 0x6830 then
    (if sub = 3 then relocGo d else if sub = 9 then (0, relocAbort d) else (0, oSet d idx sub v))
  else if idx = 0x7420 then (0, cvClear d v)
  else if 0x7C00 ≤ idx ∧ idx < 0x7C10 then
    (0, if sub = 4 then tcWriteCnt d (idx - 0x7C00) v else tcSet d (idx - 0x7C00) 5 v)
  else if 0x7E00 ≤ idx ∧ idx < 0x7E10 then (0, txResume d (idx - 0x7E00))
  else if idx = 0x8000 then (0, { d with spares := { d.spares with restore := true } })
  else if 0x8100 ≤ idx ∧ idx < 0x8180 then
    (if sub = 5 then readmit d (unitOf idx) else retire d (unitOf idx))
  else if idx = 0x8230 ∧ sub = 1 then (0, askPower d p (fun x => { x with resetReq := some (x.resetReq.elim v (resetFirst · v)) }))
  else if idx = 0x8230 then sleepReq d p
  else (0, oSet d idx sub v inst)

/-- The state tests of a live write when it is executed (04 R736, test 9). DEDUCED: log entry 17. -/
def liveCode (d : Dev) (idx sub inst off : Nat) (data : List Byte) : Nat :=
  if idx = 0x0100 then 0
  else if coreAway d idx then 7
  else if idx < 0x5800 ∧ 0x5000 ≤ idx then (if idx % 32 < 3 ∧ bankBusy d idx then 7 else 0)
  else if idx = 0x6100 then 0
  else if idx = 0x6801 ∧ sub ≠ 0x0B then
    (if covered d (rgn d.ver.active inst 0x02 + off) data.length then 7 else 0)
  else (applyLive d 0 idx sub inst off data).1

/-! ### Mailboxes and I/O rings (16 R495) -/

/-- A queue that hosts reach through ITEM and TAKE. -/
def hostQueue (d : Dev) (q : Nat) : Bool := qKind d q == 3 || qKind d q == 4

/-- Port p's bit in PORT_GRANT of queue q. -/
def granted (d : Dev) (p q : Nat) : Bool := bitOf (rs d 0x5A01 0x08 q) p

end Sys2Proof.Machine
end

