-- ==== Sys2Proof/Machine/Services.lean ====
section
/-!
DEFINITION. Sys2Proof/Machine/Services.lean: the services of the ports (04 R104-R146, R736): the tests of a request in
their order, what each service does, the order of a port's requests, live writes at the end of a Link cycle, and the
requests as commands.
-/
namespace Sys2Proof.Machine

/-! ### What a request yields -/

/-- What executing a request yields: an answer with its payload and the identity inquiries to reply to; a protocol
error, answered TYPE-MISMATCH; a violation with its cause and code (R138); a wait for room; a live write that waits for
the cycle end. -/
inductive Ans
  | done (code : Nat) (pl : List Byte) (inquiries : List Nat)
  | proto
  | violation (cause code : Nat)
  | wait (x : Outq)
  | live (w : Live)
deriving DecidableEq, Repr

/-- A plain answer. -/
def Ans.code (c : Nat) : Ans := .done c [] []

/-! ### The tests of R736 -/

/-- Payload byte or number. -/
def pl (f : Frame) (o n : Nat) : Nat := fieldAt f.payload o n

/-- Test 1: what a frozen port still executes (R108, R141). -/
def allowedFrozen (p svc : Nat) (f : Frame) : Bool :=
  svc == 0x0C || ((svc == 1 || svc == 8 || svc == 9) && (decide (f.idx < 0x1000) || f.idx == 0x1000 + p)) ||
  (svc == 0x0B && pl f 0 1 == p && decide (f.payload ≠ []))

/-- The frame names no object: INDEX and SUB are 0. -/
def nowhere (f : Frame) : Bool := f.idx == 0 && f.sub == 0

/-- Test 2: the frame breaks a layout rule of R111, R116 or R120, or has an invalid service code. -/
def badFrame (svc : Nat) (f : Frame) : Bool :=
  let n := f.payload.length
  decide (16 ≤ f.flags) || decide (64 < n) || (match svc with
    | 1 => n != 0
    | 2 => false
    | 3 => n != 5
    | 4 => decide (n < 5)
    | 5 | 6 => !nowhere f || n != 8
    | 7 => !nowhere f || n != 0
    | 8 => n != 3
    | 9 => n != 0
    | 0x0A => !nowhere f || eventBad f
    | 0x0B => !nowhere f || n != 1
    | 0x0C => !nowhere f || n != 0
    | _ => true)

/-- Test 3: the object, sub-index 0 (R101) included. -/
def objAt (idx sub : Nat) : Option ObjRef :=
  if sub = 0 then (highestSub idx).map (fun _ => ⟨0, 0, ⟨0, 1, 1, .u8, .co, .c 0, .any, .none, 0, 0⟩, 0⟩)
  else findObj idx sub

/-- The access code of an instance: every field of TH2016-TH2047 is RO (16 R502). DEDUCED: log entry 39. -/
def accAt (r : ObjRef) (inst : Nat) : Acc := if r.row.win = .thread ∧ 2016 ≤ inst then .ro else r.row.acc

/-- An access code that READ alone serves. -/
def readOnly (a : Acc) : Bool := a == .ro || a == .rc || a == .co

/-- Test 4 for reads and subscriptions (R107, R108). -/
def mayRead (d : Dev) (p idx : Nat) : Bool := decide (idx < 0x1000) || idx == 0x1000 + p || hasRight d p 0

/-- Test 4 for writes. -/
def mayWrite (d : Dev) (p : Nat) (a : Acc) (idx sub : Nat) : Bool := match a with
  | .rs => hasRight d p 2 && (hasRight d p 4 || !(decide (0x1000 ≤ idx) && decide (idx < 0x2000)))
  | .rw | .wo => hasRight d p 1 && (hasRight d p 4 || !(idx == 0x8230 && sub == 1))
  | _ => true

/-- ITEM and TAKE of a mailbox or I/O ring that does not grant port p (16 R495). -/
def ungranted (d : Dev) (p idx sub inst : Nat) : Bool :=
  idx == 0x5A01 && (sub == 9 || sub == 0x0A) && hostQueue d inst && !granted d p inst

/-- Take 8 eighths from the quota bucket (R139); none where they are missing. -/
def takeQuota (d : Dev) (p : Nat) : Option Dev :=
  if rs d (0x1000 + p) 0x03 = 0 then some d
  else if (port d p).bucket < 8 then none
  else some (modPort d p (fun x => { x with bucket := x.bucket - 8 }))

/-- Tests 7 and 8 for a value: none passes, `some true` is a wrong size, `some false` out of range. -/
def valueTest (r : ObjRef) (inst : Nat) (b : List Byte) : Option Bool := match r.row.ty with
  | .str n =>
    if 56 < b.length then some true
    else if n < b.length ∨ utf8Ok (b.map (·.toNat)) = false ∨ b.contains 0#8 then some false
    else none
  | t =>
    if b.length ≠ t.size then some true
    else if rngOk t r.row.rng r.n inst (fromLE b) && b1Ok t (fromLE b) then none
    else some false

/-! ### Reads (R104, R119) -/

/-- READ. -/
def doRead (d : Dev) (p : Nat) (f : Frame) : Dev × Ans := match objAt f.idx f.sub with
  | none => (d, .code 6)
  | some r =>
    let inst := selector d p r.row.win
    let acc := accAt r inst
    if !mayRead d p f.idx then (d, .violation 4 3)
    else if acc = .wo then (d, .code 3)
    else match r.row.ty with
      | .dom _ => (d, .code 5)
      | _ =>
        let b := if f.sub = 0 then toLE 1 ((highestSub f.idx).getD 0)
                 else readBytes d p (bitOf f.flags 0) r f.idx f.sub inst
        let d := readUses d f.idx f.sub
        let d := if acc = .rc then oSet d f.idx f.sub (defaultAt (okey f.idx f.sub inst)) inst else d
        (d, .done 0 b [])

/-- A read of ITEM by a host (16 R491): an empty queue counts an underrun, otherwise LAST becomes the item returned. -/
def itemSeen (d : Dev) (q : Nat) : Dev := match (queueOf d q).items with
  | [] => bump d 0x5A01 0x06 1 q
  | x :: _ => modQueue d q (fun y => { y with last := x })

/-- n bytes of a DOM object from an offset, and what reading them does: errors that Tuber or Gourd meet (12 R336, R356, 13 R373,
R374), and the read of an item. -/
def domRead (d : Dev) (staged : Bool) (idx sub inst o n : Nat) (errs : List (Nat × Bool)) : List Byte × Dev :=
  if idx = 0x6801 then
    let a := rgn d.ver.active inst 0x02 + o
    let es := errs.filter (fun e => meets (burstBase e.1) 64 a n)
    tuberRead (badOf es) n a (tuberErrs d es)
  else if idx = 0x6100 then
    let a := (if sub = 0x10 then 0x00818000 else 0x00808000 + 1024 * (sub - 0x11)) + o
    let d := gourdErrs d (errs.filter (fun e => meets (e.1 / 8 * 8) 8 a n))
    (domBytes d staged idx sub inst o n, d)
  else if 0x4000 ≤ idx ∧ idx < 0x4800 ∧ (staged = false ∨ d.ver.staging = none) then
    let d := gourdErrs d (errs.filter (fun e => meets (e.1 / 8 * 8) 8 (2048 * (idx - 0x4000) + o) n))
    (domBytes d staged idx sub inst o n, d)
  else
    let b := domBytes d staged idx sub inst o n
    (b, if idx = 0x5A01 ∧ b ≠ [] then itemSeen d inst else d)

/-- BLOCK-READ: it needs RD for every object (R108 names it for none). DEDUCED: log entry 19. -/
def doBlockRead (d : Dev) (p : Nat) (f : Frame) (errs : List (Nat × Bool)) : Dev × Ans := match objAt f.idx f.sub with
  | none => (d, .code 6)
  | some r =>
    let inst := selector d p r.row.win
    if !hasRight d p 0 then (d, .violation 4 3)
    else if accAt r inst = .wo then (d, .code 3)
    else match r.row.ty with
      | .dom _ =>
        let o := pl f 0 4
        let n := pl f 4 1
        if n = 0 ∨ 56 < n then (d, .code 4)
        else if f.idx = 0x5A01 ∧ hostQueue d inst = false then (d, .code 3)
        else
          let len := domLen d r f.idx inst
          if len < o then (d, .code 4)
          else
            let x := domRead d (bitOf f.flags 0) f.idx f.sub inst o (min n (len - o)) errs
            (x.2, .done 0 (toLE 4 o ++ toLE 4 len ++ x.1) [])
      | _ => (d, .code 5)

/-! ### Writes (R104, R118, R126) -/

/-- State tests and effect of an accepted WRITE. DEDUCED: log entry 19. -/
def writeObject (d : Dev) (p : Nat) (f : Frame) (r : ObjRef) (inst : Nat) : Dev × Ans :=
  if r.row.acc = .rs then
    let x := stagedWrite d p r f.idx f.sub inst 0 f.payload
    (x.2, .code x.1)
  else match selectorOf f.idx f.sub with
    | some w => (select d p w (fromLE f.payload), .code 0)
    | none =>
      if f.idx = 0x5A01 ∧ f.sub = 0x0A then
        (if hostQueue d inst then (takeHead d inst, .code 0) else (d, .code 3))
      else
        let off := if f.idx = 0x0300 then oGet d 0x0300 0x01 else 0
        let c := liveCode d f.idx f.sub inst off f.payload
        if c ≠ 0 then (d, .code c) else (d, .live ⟨p, 2, f, f.idx, f.sub, inst, off, f.payload⟩)

/-- WRITE. DEDUCED: log entry 19. -/
def doWrite (d : Dev) (p : Nat) (f : Frame) : Dev × Ans := match objAt f.idx f.sub with
  | none => (d, .code 6)
  | some r =>
    let inst := selector d p r.row.win
    let acc := accAt r inst
    if !mayWrite d p acc f.idx f.sub || ungranted d p f.idx f.sub inst then (d, .violation 4 3)
    else if readOnly acc then (d, .violation 1 3)
    else match r.row.ty with
      | .dom _ => (d, .code 5)
      | _ => match valueTest r inst f.payload with
        | some true => (d, .proto)
        | some false => (d, .code 4)
        | none => writeObject d p f r inst

/-- The open transfer of port p goes. -/
def dropXfer (d : Dev) (p : Nat) : Dev := modPort d p (fun x => { x with xfer := none })

/-- A segment with FIRST discards the transfer that is open, which is a protocol error (R118 item 1). -/
def dropOpen (d : Dev) (p : Nat) (f : Frame) : Dev :=
  if bitOf f.flags 2 ∧ (port d p).xfer.isSome then protoError (dropXfer d p) p f.seq else d

/-- A segment may begin or continue a transfer (R118 items 1 to 3). -/
def segmentOk (d : Dev) (p : Nat) (f : Frame) : Bool := bitOf f.flags 2 || (match (port d p).xfer with
  | some x => x.idx == f.idx && x.sub == f.sub && pl f 0 4 == x.first + x.data.length
  | none => false)

/-- A segment whose transfer fits: `x` is the transfer with the segment's data. DEDUCED: log entry 21. -/
def segmentGo (d : Dev) (p : Nat) (f : Frame) (r : ObjRef) (x : Xfer) : Dev × Ans :=
  let keep (d : Dev) : Dev := modPort d p (fun y => { y with xfer := some x })
  if r.row.acc = .rs then
    if bitOf f.flags 3 then
      let y := stagedWrite d p r x.idx x.sub x.inst x.first x.data
      (if y.1 = 0 then dropXfer y.2 p else y.2, .code y.1)
    else (keep d, .code 0)
  else
    let c := liveCode d x.idx x.sub x.inst x.first x.data
    if c ≠ 0 then (if bitOf f.flags 3 then dropXfer d p else d, .code c)
    else if bitOf f.flags 3 then (dropXfer d p, .live ⟨p, 4, f, x.idx, x.sub, x.inst, x.first, x.data⟩)
    else (keep d, .code 0)

/-- A segment for a DOM object other than ITEM, for the instance that is selected now (05 R153). DEDUCED: log entry 21. -/
def segment (d : Dev) (p : Nat) (f : Frame) (r : ObjRef) (inst : Nat) : Dev × Ans :=
  let off := pl f 0 4
  let data := f.payload.drop 4
  let d := dropOpen d p f
  if frozen d p then (d, .code 5)
  else
    let x : Xfer := match bitOf f.flags 2, (port d p).xfer with
      | false, some x => { x with data := x.data ++ data, inst := inst }
      | _, _ => ⟨f.idx, f.sub, inst, off, data⟩
    let big := (f.idx = 0x6801 ∨ (f.idx = 0x6100 ∧ f.sub = 0x10)) ∧ 65536 < x.data.length
    if domLen d r f.idx x.inst < off + data.length ∨ big ∨ intoConst d f.idx x.first then (dropXfer d p, .code 4)
    else segmentGo d p f r x

/-- BLOCK-WRITE. DEDUCED: log entries 19, 21. -/
def doBlockWrite (d : Dev) (p : Nat) (f : Frame) : Dev × Ans :=
  if !segmentOk d p f then (dropXfer d p, .proto)
  else match objAt f.idx f.sub with
    | none => (d, .code 6)
    | some r =>
      let inst := selector d p r.row.win
      let acc := accAt r inst
      if !mayWrite d p acc f.idx f.sub || ungranted d p f.idx f.sub inst then (d, .violation 4 3)
      else if readOnly acc then (d, .violation 1 3)
      else match r.row.ty with
        | .dom _ =>
          if f.idx = 0x5A01 then
            if hostQueue d inst = false then (d, .code 3)
            else if f.flags / 4 % 4 ≠ 3 ∨ pl f 0 4 ≠ 0 ∨ f.payload.length ≠ 20 then (d, .proto)
            else if frozen (dropOpen d p f) p then (dropOpen d p f, .code 5)
            else (dropOpen d p f, .wait (.item f inst (BitVec.ofNat 128 (fromLE (f.payload.drop 4)))))
          else segment d p f r inst
        | _ => (d, .code 5)

/-! ### Versions (R131-R137) -/

/-- COMMIT, REVERT or ABORT: the right, then what the version machine answers. DEDUCED: log entry 26. -/
def doVersion (d : Dev) (p : Nat) (go : Dev → VerAns) (eff : Bool) : Dev × Ans :=
  if !hasRight d p 2 then (d, .violation 4 3)
  else match go d with
    | (c, v, e, d) => (d, .done c (toLE 4 v ++ (if eff then toLE 8 e else [])) [])

/-! ### Subscriptions (R121) -/

/-- Same object and instance. -/
def Subscription.same (s : Subscription) (idx sub inst : Nat) : Bool := s.idx == idx && s.sub == sub && s.inst == inst

/-- SUBSCRIBE. The boundaries of MODE 1 are counted from here (R121). DEDUCED: log entries 19, 25; DESIGN CHOICE: log entry
59. -/
def doSubscribe (d : Dev) (p : Nat) (f : Frame) : Dev × Ans := match objAt f.idx f.sub with
  | none => (d, .code 6)
  | some r =>
    let inst := selector d p r.row.win
    let dom : Bool := match r.row.ty with
      | .dom _ => true
      | _ => false
    let mode := pl f 0 1
    let per := pl f 1 2
    if !mayRead d p f.idx then (d, .violation 4 3)
    else if accAt r inst = .wo then (d, .code 3)
    else if dom ∨ 1 < mode then (d, .code 5)
    else
      let l := (port d p).subs.filter (fun s => !s.same f.idx f.sub inst)
      if (mode = 1 ∧ per = 0) ∨ 64 ≤ l.length then (d, .code 4)
      else (modPort d p (fun x => { x with subs := l ++ [⟨f.node, f.idx, f.sub, inst, mode, per, per, none⟩] }), .code 0)

/-- UNSUBSCRIBE. -/
def doUnsubscribe (d : Dev) (p : Nat) (f : Frame) : Dev × Ans :=
  if nowhere f then (modPort d p (fun x => { x with subs := [] }), .code 0)
  else match objAt f.idx f.sub with
    | none => (d, .code 6)
    | some r =>
      let inst := selector d p r.row.win
      if !mayRead d p f.idx then (d, .violation 4 3)
      else (modPort d p (fun x => { x with subs := x.subs.filter (fun s => !s.same f.idx f.sub inst) }), .code 0)

/-! ### Events (R120; 11 R318, R739) -/

/-- The stamp of a frame as a SIX; none where a Link-time stamp has no anchor. DEDUCED: log entry 23. -/
def stampOf (d : Dev) (f : Frame) (anchor : Option (Nat × Nat)) : Option Nat :=
  if pl f 0 1 = 2 then anchor.map (fun a => toSix d a (pl f 4 8)) else some (pl f 4 8)

/-- EVENT. -/
def doEvent (d : Dev) (p : Nat) (f : Frame) (anchor : Option (Nat × Nat)) : Dev × Ans :=
  if !hasRight d p 3 then (d, .violation 4 3)
  else
    let ps := (eventPkts f).getD []
    if !mediaRuns d then
      if ps.any makesItem then (d, .code 7) else (d, .done 0 (toLE 1 ps.length) (ps.filterMap inquiryOf))
    else match stampOf d f anchor with
      | none => (d, .code 7)
      | some six =>
        let untimed := pl f 0 1 = 0
        if ¬ untimed ∧ sixNow d + horizon d < six then (d, .code 0x0A)
        else (d, .wait (.event (waitOf d p six untimed f ps)))

/-! ### UNFREEZE and IDENTIFY (R124, R144, R145) -/

/-- A port that can unfreeze others: in session, not frozen, holding SV. DEDUCED: log entry 28. -/
def supervises (d : Dev) (p : Nat) : Bool := (port d p).session && !frozen d p && hasRight d p 4

/-- UNFREEZE. DEDUCED: log entry 28. -/
def doUnfreeze (d : Dev) (p : Nat) (f : Frame) : Dev × Ans :=
  let t := pl f 0 1
  if ¬ (t < 8 ∨ isCore t) then (d, .code 4)
  else if t = p then
    if frozen d p then
      let d := remind (oSet d (0x1000 + p) 0x08 1) (0x1000 + p) 0x08
      let alone := hasRight d p 4 && !(rangeFrom 0 8).any (supervises d)
      (modPort d p (fun x => { x with selfTimer := x.selfTimer || alone }), .code 0)
    else (d, .code 0)
  else if !hasRight d p 4 then (d, .violation 4 3)
  else if t < 8 then (thawPort d t p, .code 0)
  else (thawCore d (t - 0x40) p, .code 0)

/-- The IDENTIFY payload. -/
def identifyBytes (d : Dev) (p : Nat) : List Byte :=
  let st := b2n (frozen d p) + 2 * b2n (decide (d.ver.owner = some p ∧ (d.ver.stage = .opened ∨ d.ver.stage = .commitPending))) + 4 * oGet d (0x1000 + p) 0x08
  toLE 2 0x54D3 ++ toLE 2 0x8100 ++ toLE 1 (identityNat 3) ++ toLE 1 (identityNat 4) ++ toLE 1 (identityNat 5) ++
  toLE 1 (identityNat 6) ++ toLE 8 (identityNat 7) ++ toLE 4 (identityNat 8) ++ toLE 1 p ++
  toLE 1 (rs d (0x1000 + p) 0x01) ++ toLE 1 st ++ toLE 1 0

/-! ### Execution in order (R113, R736) -/

/-- A request that takes 8 eighths from the bucket, whatever its answer (R139). -/
def charged (svc : Nat) : Bool := svc == 2 || (4 ≤ svc && svc ≤ 7)

/-- The quota's share of a request, if the bucket holds it. -/
def charge (d : Dev) (p svc : Nat) : Option Dev := if charged svc then takeQuota d p else some d

/-- Execute a request of port p: test 1 and the quota, then the others (log entry 19, DEDUCED); `errs` are the errors that the reads of a BLOCK-READ, or the
head fills of a COMMIT or REVERT, meet. -/
def execute (d : Dev) (p svc : Nat) (f : Frame) (anchor : Option (Nat × Nat)) (errs : List (Nat × Bool)) : Dev × Ans :=
  if frozen d p && !allowedFrozen p svc f then
    (bump d (0x1000 + p) 0x0D (refusedPackets (.req svc f anchor)), .code 8)
  else match charge d p svc with
    | none => (d, .violation 2 8)
    | some d =>
      if badFrame svc f then (d, .proto)
      else match svc with
        | 1 => doRead d p f
        | 2 => doWrite d p f
        | 3 => doBlockRead d p f errs
        | 4 => doBlockWrite d p f
        | 5 => doVersion d p (fun d => commitGo d p (pl f 0 8) errs) true
        | 6 => doVersion d p (fun d => revertGo d p (pl f 0 8) errs) true
        | 7 => doVersion d p (fun d => abortGo d p) false
        | 8 => doSubscribe d p f
        | 9 => doUnsubscribe d p f
        | 0x0A => doEvent d p f anchor
        | 0x0B => doUnfreeze d p f
        | _ => (d, .done 0 (identifyBytes d p) [])

/-- Put an entry at the end of what port p still has to answer. -/
def queueOut (d : Dev) (p : Nat) (x : Outq) : Dev := modPort d p (fun y => { y with outq := y.outq ++ [x] })

/-- Answer now, or behind the live writes that are still to be answered. -/
def answer (d : Dev) (p svc : Nat) (f : Frame) (c : Nat) (b : List Byte) : Dev :=
  if (port d p).outq = [] then respond d p f svc c b else queueOut d p (.live f svc (some c))

/-- What follows from a request's result. -/
def finish (d : Dev) (p svc : Nat) (f : Frame) (a : Ans) : Dev := match a with
  | .done c b gs => sendReplies (answer d p svc f c b) p f.node gs
  | .proto => answer (protoError d p f.seq) p svc f 5 []
  | .violation cause c => answer (freezePort d p cause f.seq) p svc f c []
  | .live w => queueOut { d with live := d.live ++ [w] } p (.live f svc none)
  | .wait (.event w) => queueOut (if evRoom d w.items then d else countWait d w) p (.event w)
  | .wait (.item f q v) => queueOut (if 0 < qRoom d q then d else fullWait d q) p (.item f q v)
  | .wait x => queueOut d p x

/-- A COMMIT or REVERT that is answered OK. -/
def accepted (svc : Nat) (a : Ans) : Bool := (svc == 5 || svc == 6) && (match a with
  | .done c _ _ => c == 0
  | _ => false)

/-- Outside running the switch of an accepted COMMIT or REVERT happens at the response (R135): the request is answered before it
(17 R544, 21 R642), and on a port that it restarts the answer leaves first. -/
def switchAnswered (svc : Nat) (a : Ans) (d : Dev) : Dev := if accepted svc a ∧ mediaRuns d = false then switchWaiting d else d

/-- The request repeats one whose response is kept, or one of the requests ahead of it (R112). -/
def repeats (d : Dev) (p : Nat) (ahead : List Outq) (f : Frame) : Bool :=
  (keptResp d p f).isSome || ahead.any (fun x => x.frame.seq == f.seq && x.frame.node == f.node)

/-- Execute a request that stands between `ahead` and `rest`; a freeze refuses what stands behind it, and
with the session it is discarded (R114, 17 R544). A repeat is answered again instead (R112). DEDUCED: log entry 22. -/
def runReq (d : Dev) (p : Nat) (errs : List (Nat × Bool)) (ahead rest : List Outq) (svc : Nat) (f : Frame)
    (anchor : Option (Nat × Nat)) : Dev :=
  match keptResp d p f with
  | some r => answerAgain (modPort d p (fun x => { x with outq := ahead ++ rest })) p f r
  | none =>
  let was := frozen d p
  let r := execute (modPort d p (fun x => { x with outq := ahead })) p svc f anchor errs
  let d := switchAnswered svc r.2 (finish r.1 p svc f r.2)
  let d := if (port d p).session then modPort d p (fun x => { x with outq := x.outq ++ rest }) else d
  if frozen d p && !was then flushFrozen d p else d

/-- The request writes an RW or WO object that is arbitrated at the cycle end. -/
def isLive (svc : Nat) (f : Frame) : Bool := (svc == 2 || svc == 4) && (match objAt f.idx f.sub with
  | some r => (r.row.acc == .rw || r.row.acc == .wo) && (selectorOf f.idx f.sub).isNone &&
      !(f.idx == 0x5A01 && (f.sub == 9 || f.sub == 0x0A))
  | none => false)

/-- Split a port's list before its first request that is not yet executed, if only live writes stand before it. -/
def splitLive : List Outq → Option (List Outq × Nat × Frame × Option (Nat × Nat) × List Outq)
  | .req svc f a :: r => some ([], svc, f, a, r)
  | .live f svc c :: r => (splitLive r).map (fun x => (.live f svc c :: x.1, x.2))
  | _ => none

/-- One thing that port p can do now, if any. -/
def pumpOnce (d : Dev) (p : Nat) (errs : List (Nat × Bool)) : Option Dev :=
  let pop (r : List Outq) : Dev := modPort d p (fun x => { x with outq := r })
  match (port d p).outq with
  | .live f svc (some c) :: r => some (respond (pop r) p f svc c [])
  | .event w :: r =>
    if evRoom d w.items then
      let d := respond (enterWait (pop r) w) p w.frame 0x0A 0 (toLE 1 w.packets)
      some (sendReplies d p w.frame.node w.inquiries)
    else none
  | .item f q v :: r => match qPutIf (pop r) q v with
    | some d => some (respond d p f 4 0 [])
    | none => none
  | l => match splitLive l with
    | some (ahead, svc, f, a, r) =>
      if ahead = [] ∨ (isLive svc f ∧ repeats d p ahead f = false) then some (runReq d p errs ahead r svc f a) else none
    | none => none

/-- Everything that port p can do now. -/
def pumpN (errs : List (Nat × Bool)) : Nat → Dev → Nat → Dev
  | 0, d, _ => d
  | n + 1, d, p => match pumpOnce d p errs with
    | some d => pumpN errs n d p
    | none => d

/-- Each entry is executed and answered at most once. -/
def pump (d : Dev) (p : Nat) (errs : List (Nat × Bool)) : Dev := pumpN errs (2 * (port d p).outq.length + 1) d p

/-- A UART in host mode shows by XOFF or XON how its port's queues stand (R113). -/
def showFlow (d : Dev) (p : Nat) : Dev := if 4 ≤ p then flowCheck d (p - 4) else d

/-- XOFF when a request has filled the queues. -/
def askXoff (d : Dev) (p : Nat) : Dev := if serviceFull d p then showFlow d p else d

/-! ### Arrival of a request -/

/-- A request whose CRC checks reaches port p, in order of arrival (R113); a response is a protocol error (R116).
DEDUCED: log entry 22. -/
def takeRequest (d : Dev) (p svc : Nat) (f : Frame) (errs : List (Nat × Bool)) : Dev :=
  if 128 ≤ svc then protoError d p f.seq
  else askXoff (pump (queueOut d p (.req svc f d.time.anchor)) p errs) p

/-- A service frame on port p: on a Link port it passes the guard test (17 R534), and a frame beyond its credit
(R522) or with LEN above 64 (R515) is discarded. -/
def submit (d : Dev) (p svc : Nat) (f : Frame) (errs : List (Nat × Bool)) : Dev :=
  if 8 ≤ p then d
  else if p < 4 then
    let g := if receives d p then guardTest d p f.node f.off else (false, d)
    if !g.1 then g.2
    else
      let d := forwardFrame g.2 p f.node (svcFrame f.seq svc f.flags f.idx f.sub f.payload)
      if (port d p).session = false then d else
      let c := takeCredit d p f.node 0
      if !c.1 then creditOverrun c.2 p f.seq
      else if 64 < f.payload.length then protoError c.2 p f.seq
      else takeRequest c.2 p svc f errs
  else if (port d p).session then takeRequest d p svc f errs
  else d

/-! ### Live writes (R126, R127) -/

/-- Two live writes name the same object. -/
def Live.same (a b : Live) : Bool := a.idx == b.idx && a.sub == b.sub && a.inst == b.inst

/-- The port of best rank among those that wrote the object of w. DEDUCED: log entry 17. -/
def winner (d : Dev) (l : List Live) (w : Live) : Nat :=
  ((bestBy (fun a b => decide (rs d (0x1000 + a) 0x02 < rs d (0x1000 + b) 0x02))
    ((l.filter w.same).map (·.port))).getD w.port)

/-- Give the first unanswered live write of port p its answer. -/
def answerLive (c : Nat) : List Outq → List Outq
  | .live f svc none :: r => .live f svc (some c) :: r
  | x :: r => x :: answerLive c r
  | [] => []

/-- Resolve one live write of the list `all`; `rest` are the later ones. DEDUCED: log entry 17. -/
def resolveOne (all rest : List Live) (d : Dev) (w : Live) : Dev :=
  let put (d : Dev) (c : Nat) : Dev := modPort d w.port (fun x => { x with outq := answerLive c x.outq })
  if winner d all w ≠ w.port then put (bump d (0x1000 + w.port) 0x0C) 1
  else if rest.any (fun x => x.same w && x.port == w.port) then put d 0
  else
    let r := applyLive d w.port w.idx w.sub w.inst w.off w.data
    put r.2 r.1

/-- Resolve every live write of the cycle in order of arrival. -/
def resolveList (all : List Live) : List Live → Dev → Dev
  | [], d => d
  | w :: r, d => resolveList all r (resolveOne all r d w)

/-- The live writes of the cycle. DEDUCED: log entry 17. -/
def resolveLive (d : Dev) : Dev := resolveList d.live d.live { d with live := [] }

/-- Begin the reset or the sleep that writes asked for, once their answers have left (23 R681, R686).
DEDUCED: log entry 68. -/
def takePower (d : Dev) : Dev :=
  if d.power.askers.all (answered d) then match d.power.resetReq with
    | some v => resetDev d v
    | none => if d.power.sleepReq then enterSleep d else d
  else d

/-- A start of the media that waited for a switch begins once no switch is pending (02 R31). -/
def startWaiting (d : Dev) : Dev :=
  if d.ver.startAfter ∧ switchPending d = false then mediaStart { d with ver := { d.ver with startAfter := false } } else d

/-- Answers have left the device: what waited for them follows. -/
def afterAnswers (d : Dev) : Dev :=
  let d := noteTold d
  takePower (startWaiting (if mediaRuns d then d else switchWaiting d))

/-! ### The cycle end (17 R514) -/

/-- Link time at the device's cycle boundary (02 R53, R62): a marker of the time master has set it already.
DESIGN CHOICE: log entry 13. -/
def cycleTime (d : Dev) : Dev :=
  let partner := rs d 0x2010 0x07 ≠ 0
  let d := if partner ∧ d.time.sinceMark = 0 then d else setLinkTime d ((linkTime d + 125000) % 2 ^ 64)
  { d with cycles := d.cycles + 1, time := { d.time with sinceMark := d.time.sinceMark + 1 } }

/-- Q eighths enter port p's bucket (R139). -/
def refillQuota (d : Dev) (p : Nat) : Dev :=
  let q := rs d (0x1000 + p) 0x03
  modPort d p (fun x => { x with bucket := min (8 * q) (x.bucket + q) })

/-- UART n's MIDI message that waits for queue room enters when there is room. -/
def resumeMidi (d : Dev) (n : Nat) : Dev := if (uartOf d n).midiWait.isSome then uartResume d n else d

/-- The device as time master: its cycle boundary is the marker, which also ends a holdover that a partner left
(02 R55, R62). DEDUCED: log entry 58. -/
def ownMarker (d : Dev) (frac : Nat) : Dev :=
  if rs d 0x2010 0x07 = 0 then
    oSet (latchAnchor d (linkTime d) frac (oGet d 0x2020 0x0D == 1)) 0x2020 0x0D 0
  else d

/-- A device Link cycle ends. DEDUCED: log entry 18. -/
def cycleEnd (d : Dev) (c : CycleEnd) : Dev :=
  let d := cycleTime d
  let d := advanceTick d (cycleTick d)
  let d := if mediaRuns d then d else evalNotes false d
  let d := (rangeFrom 0 8).foldl refillQuota (resolveLive d)
  let d := gourdErrs (gourdConflicts (ownMarker d c.frac) c.conflicts) c.met
  let d := (rangeFrom 0 8).foldl (fun d p => showFlow (pump d p []) p) d
  let d := (rangeFrom 0 4).foldl (linkCycle c.ports) d
  let d := (rangeFrom 0 4).foldl resumeMidi d
  afterAnswers (dmaPump ((rangeFrom 0 4).foldl txPump d))

/-- LINK_CYCLE_END. DEDUCED: log entry 51. -/
def execLinkCycleEnd (c : CycleEnd) (s : State) : Out := onAwake (fun d => cycleEnd d c) s

/-- UART_TX_DONE: the character in transmission finishes, the next starts. -/
def execUartTxDone (n : Nat) (s : State) : Out :=
  onAwake (fun d => if n < 4 then afterAnswers (txPump (modUart d n (fun u => { u with sending := none })) n) else d) s

/-- PROTO_PERIOD_END: every port's protocol-error count restarts (R140). -/
def execProtoPeriodEnd (s : State) : Out :=
  onAwake (fun d => (rangeFrom 0 8).foldl (fun d p => modPort d p (fun x => { x with protoCount := 0 })) d) s

/-- SELF_UNFREEZE of port p, 100 ms after its request (R145). -/
def execSelfUnfreeze (p : Nat) (s : State) : Out :=
  onAwake (fun d => if p < 8 ∧ (port d p).selfTimer then thawPort d p 0xFF else d) s

/-- EVENT_QUEUE_ENTRY: port p goes on with an EVENT frame, or its UART with a message, that waited for room (11 R317,
R318). -/
def execEventQueueEntry (p : Nat) (s : State) : Out :=
  onAwake (fun d =>
    if p < 4 then pump d p [] else if p < 8 then resumeMidi (showFlow (pump d p []) p) (p - 4) else d) s

/-! ### Requests as commands -/

/-- The twelve services, each a request of port p. -/
def execRead (p : Nat) (f : Frame) (s : State) : Out := onAwake (fun d => submit d p 1 f []) s
def execWrite (p : Nat) (f : Frame) (s : State) : Out := onAwake (fun d => submit d p 2 f []) s
def execBlockRead (p : Nat) (f : BlockFrame) (s : State) : Out := onAwake (fun d => submit d p 3 f.frame f.errs) s
def execBlockWrite (p : Nat) (f : Frame) (s : State) : Out := onAwake (fun d => submit d p 4 f []) s
def execCommit (p : Nat) (f : Frame) (errs : List (Nat × Bool)) (s : State) : Out := onAwake (fun d => submit d p 5 f errs) s
def execRevert (p : Nat) (f : Frame) (errs : List (Nat × Bool)) (s : State) : Out := onAwake (fun d => submit d p 6 f errs) s
def execAbort (p : Nat) (f : Frame) (s : State) : Out := onAwake (fun d => submit d p 7 f []) s
def execSubscribe (p : Nat) (f : Frame) (s : State) : Out := onAwake (fun d => submit d p 8 f []) s
def execUnsubscribe (p : Nat) (f : Frame) (s : State) : Out := onAwake (fun d => submit d p 9 f []) s
def execEvent (p : Nat) (f : Frame) (s : State) : Out := onAwake (fun d => submit d p 0x0A f []) s
def execUnfreeze (p : Nat) (f : Frame) (s : State) : Out := onAwake (fun d => submit d p 0x0B f []) s
def execIdentify (p : Nat) (f : Frame) (s : State) : Out := onAwake (fun d => submit d p 0x0C f []) s

/-- A service code, with DIR, that is a protocol error in a request (R116). DEDUCED: log entry 22. -/
def badCode (svc : Nat) : Bool := svc == 0 || decide (0x0D ≤ svc)

/-- INVALID_SERVICE_FRAME: a frame with DIR 1, an invalid code, or on a Link port LEN above 64.
DEDUCED: log entry 22. -/
def execInvalidServiceFrame (p svc : Nat) (f : Frame) (s : State) : Out :=
  onAwake (fun d => if badCode svc || decide (64 < f.payload.length) then submit d p svc f [] else d) s

/-! ### Writes of objects with a behaviour of their own -/

/-- The frame of a WRITE of n bytes. -/
def writeFrame (h : Hdr) (idx sub n v : Nat) : Frame := ⟨h.node, h.off, h.seq, h.flags, idx, sub, toLE n v⟩

/-- The last live write of the cycle is resolved at once when no other write names its object.
DEDUCED: log entry 16. -/
def settleLast (d : Dev) : Dev := match d.live.getLast? with
  | none => d
  | some w =>
    let rest := d.live.dropLast
    if rest.any w.same then d
    else
      let d := resolveList [w] [w] { d with live := rest }
      pump d w.port []

/-- A write of an object by port p, alone in its cycle: its request, and the effect of its arbitration.
DEDUCED: log entry 16. -/
def writeNow (d : Dev) (p : Nat) (f : Frame) : Dev :=
  let quiet := (port d p).outq = []
  let n := d.live.length
  let d := submit d p 2 f []
  if quiet ∧ n < d.live.length then takePower (settleLast d) else d

/-- A write command. DEDUCED: log entry 16. -/
def writeCmd (p : Nat) (h : Hdr) (idx sub n v : Nat) (s : State) : Out :=
  onAwake (fun d => writeNow d p (writeFrame h idx sub n v)) s

/-- Index and sub-index of a window selector. -/
def selAt : Sel → Nat × Nat
  | .thread => (0x5800, 0x01)
  | .counter => (0x5800, 0x02)
  | .queue => (0x5A00, 0x01)
  | .region => (0x6800, 0x01)
  | .program => (0x4800, 0x01)
  | .voice => (0x4C00, 0x10)

/-- WINDOW_SELECT. -/
def execWindowSelect (p : Nat) (h : Hdr) (w : Sel) (v : Nat) (s : State) : Out := writeCmd p h (selAt w).1 (selAt w).2 2 v s
/-- MEDIA_START, MEDIA_STOP, MEDIA_START_ABANDON. -/
def execMediaStart (p : Nat) (h : Hdr) (s : State) : Out := writeCmd p h 0x2000 0x01 1 1 s
def execMediaStop (p : Nat) (h : Hdr) (s : State) : Out :=
  onAwake (fun d => if mediaRuns d then writeNow d p (writeFrame h 0x2000 0x01 1 0) else d) s
def execMediaStartAbandon (p : Nat) (h : Hdr) (s : State) : Out :=
  onAwake (fun d => if mediaState d = 1 then writeNow d p (writeFrame h 0x2000 0x01 1 0) else d) s
/-- REF_RESELECT, LINK_TIME_SET. -/
def execRefReselect (p : Nat) (h : Hdr) (s : State) : Out := writeCmd p h 0x2010 0x06 1 1 s
def execLinkTimeSet (p : Nat) (h : Hdr) (v : Nat) (s : State) : Out := writeCmd p h 0x2020 0x0C 8 v s
/-- REJOIN of node n of port l. -/
def execRejoin (p : Nat) (h : Hdr) (l n : Nat) (s : State) : Out := writeCmd p h (nodeIdx (l % 4) (n % 8)) 0x05 1 1 s
/-- VERIFY, RELOC_GO, RELOC_ABORT. -/
def execVerify (p : Nat) (h : Hdr) (s : State) : Out := writeCmd p h 0x6801 0x0B 1 1 s
def execRelocGo (p : Nat) (h : Hdr) (s : State) : Out := writeCmd p h 0x6830 0x03 1 1 s
def execRelocAbort (p : Nat) (h : Hdr) (s : State) : Out := writeCmd p h 0x6830 0x09 1 1 s
/-- CNT_VALUE, KICK, LEVEL, TAKE, FLUSH of the instances that the port's selectors name. -/
def execCntValue (p : Nat) (h : Hdr) (v : Nat) (s : State) : Out := writeCmd p h 0x5800 0x10 2 v s
def execKick (p : Nat) (h : Hdr) (s : State) : Out := writeCmd p h 0x5801 0x0E 1 1 s
def execLevelWrite (p : Nat) (h : Hdr) (v : Nat) (s : State) : Out := writeCmd p h 0x5801 0x05 1 v s
def execTake (p : Nat) (h : Hdr) (s : State) : Out := writeCmd p h 0x5A01 0x0A 1 1 s
def execFlush (p : Nat) (h : Hdr) (s : State) : Out := writeCmd p h 0x5A01 0x0B 1 1 s
/-- ITEM_WRITE of one segment with FIRST and LAST. -/
def execItemWrite (p : Nat) (h : Hdr) (v : BitVec 128) (s : State) : Out :=
  onAwake (fun d => submit d p 4
    ⟨h.node, h.off, h.seq, h.flags % 4 + 12, 0x5A01, 0x09, toLE 4 0 ++ toLE 16 v.toNat⟩ []) s
/-- DIGEST_MARK, FAULT_CLEAR, CV_CLEAR, RESTORE. -/
def execDigestMark (p : Nat) (h : Hdr) (v : Nat) (s : State) : Out := writeCmd p h 0x0100 0x03 8 v s
def execFaultClear (p : Nat) (h : Hdr) (s : State) : Out := writeCmd p h 0x0300 0x04 1 1 s
def execCvClear (p : Nat) (h : Hdr) (v : Bool) (s : State) : Out := writeCmd p h 0x7420 0x05 1 (b2n v) s
def execRestore (p : Nat) (h : Hdr) (s : State) : Out := writeCmd p h 0x8000 0x0B 1 1 s
/-- RETIRE and READMIT of the unit with code u. -/
def execRetire (p : Nat) (h : Hdr) (u : Nat) (s : State) : Out := writeCmd p h (0x8100 + u % 0x80) 0x06 1 1 s
def execReadmit (p : Nat) (h : Hdr) (u : Nat) (s : State) : Out := writeCmd p h (0x8100 + u % 0x80) 0x05 1 1 s
/-- CNT and CMP of timer n; TX_RESUME of UART n. -/
def execTcCntWrite (p : Nat) (h : Hdr) (n v : Nat) (s : State) : Out := writeCmd p h (0x7C00 + n % 16) 0x04 4 v s
def execTcCmpWrite (p : Nat) (h : Hdr) (n v : Nat) (s : State) : Out := writeCmd p h (0x7C00 + n % 16) 0x05 4 v s
def execTxResume (p : Nat) (h : Hdr) (n : Nat) (s : State) : Out := writeCmd p h (0x7E00 + n % 4) 0x13 1 1 s
/-- RESET_REQ_COLD, RESET_REQ_WARM, SLEEP_REQUEST. -/
def execResetReqCold (p : Nat) (h : Hdr) (s : State) : Out := writeCmd p h 0x8230 0x01 1 1 s
def execResetReqWarm (p : Nat) (h : Hdr) (s : State) : Out := writeCmd p h 0x8230 0x01 1 2 s
def execSleepRequest (p : Nat) (h : Hdr) (s : State) : Out := writeCmd p h 0x8230 0x02 1 1 s

end Sys2Proof.Machine
end

