-- ==== Sys2Proof/Machine/Wake.lean ====
section
/-!
DEFINITION. Sys2Proof/Machine/Wake.lean: characters that UARTs receive (21 R634-R641), conversions of the sense chain (20
R601, R609), and the requests that wake the device from sleep (23 R687-R690).
-/
namespace Sys2Proof.Machine

/-- Candidates of host mode on UART n are requests of its port, in order (21 R640). -/
def hostRequests (n : Nat) (l : List (List Byte)) (d : Dev) : Dev :=
  l.foldl (fun d b =>
    let r := hostFrame d n b
    match r.2 with
    | some (svc, f) => submit r.1 (4 + n) svc f []
    | none => r.1) d

/-- A character with flags fl passes to UART n's mode. DEDUCED: log entry 43. -/
def charIn (d : Dev) (n c fl : Nat) : Dev :=
  let r := rxChar d n c fl
  hostRequests n r.2 r.1

/-- After wake the buffered characters of UART n are taken in order (R641); they were counted when they completed. -/
def takeSleepBuffer (d : Dev) (n : Nat) : Dev :=
  let l := (uartOf d n).sleep
  l.foldl (fun d x => let r := takeChar d n x.1 x.2; hostRequests n r.2 r.1) (modUart d n (fun u => { u with sleep := [] }))

/-- The device wakes by a source of R689. DESIGN CHOICE: log entry 12. -/
def wake (d : Dev) (cause : Nat) : Dev := (rangeFrom 0 4).foldl takeSleepBuffer (wakeUp d cause)

/-- A character makes a wake request (R641). DEDUCED: log entry 43. -/
def wakeChar (d : Dev) (n c : Nat) : Bool :=
  let k := uf d n 0x0E
  (k == 1 && uBits d n == 9 && c / 256 % 2 == 1 && c % 256 == uf d n 0x0F) ||
  (k == 2 && (c % 256) &&& uf d n 0x11 == uf d n 0x10 &&& uf d n 0x11)

/-- A character in sleep is counted (R634) and enters the sleep buffer of 16. -/
def sleepChar (d : Dev) (n c fl : Nat) : Dev :=
  if uMode d n ≠ 0 ∧ uf d n 0x0D = 1 then
    let l := (uartOf d n).sleep
    let d := countChar d n fl
    let d := if 16 ≤ l.length then uBump d n 0x1A else d
    let d := modUart d n (fun u => { u with sleep := lastN 16 (l ++ [(c, fl)]) })
    if wakeChar d n c then wake d 3 else d
  else d

/-- UART_CHAR_RX: the bits of a character on UART n, its parity bit and its first stop bit. -/
def execUartCharRx (n c : Nat) (parity stop : Bool) (s : State) : Out :=
  onDev (fun d =>
    if n < 4 then
      let c := c % 2 ^ uBits d n
      let fl := charFlags d n c parity stop
      if asleep d then sleepChar d n c fl
      else if d.power.phase = .awake then charIn d n c fl
      else d
    else d) s

/-- SENSE_CONVERSION: code x of input n, sampled at media position pos (R601, R609). DEDUCED: log entry 51. -/
def execSenseConversion (n x pos : Nat) (s : State) : Out :=
  onDev (fun d =>
    if d.power.phase = .awake ∨ d.power.phase = .asleep then
      let r := convert d n x pos
      if r.1 then wake r.2 4 else r.2
    else d) s

/-- WAKE_N_ASSERT: WAKE_N low for 10 µs (R689). -/
def execWakeNAssert (s : State) : Out :=
  onDev (fun d => if asleep d ∧ bitOf (rs d 0x8230 0x03) 0 then wake d 1 else d) s

/-- LINK_ACTIVITY_WAKE: activity on the receive lanes of port l (R689). -/
def execLinkActivityWake (l : Nat) (s : State) : Out :=
  onDev (fun d => if asleep d ∧ l < 4 ∧ bitOf (rs d 0x8230 0x03) (1 + l) then wake d 2 else d) s

end Sys2Proof.Machine
end

