-- ==== Sys2Proof/Machine/Dispatch.lean ====
section
/-!
DEFINITION. Sys2Proof/Machine/Dispatch.lean: one arm per command, each a direct call of its meaning.
-/
namespace Sys2Proof.Machine

def exec (i : Instr) (s : State) : Host.Outcome State Fault Refusal :=
  match i with
  | .read p f => Sys2Proof.Machine.execRead p f s
  | .write p f => Sys2Proof.Machine.execWrite p f s
  | .blockRead p f => Sys2Proof.Machine.execBlockRead p f s
  | .blockWrite p f => Sys2Proof.Machine.execBlockWrite p f s
  | .commit p f errs => Sys2Proof.Machine.execCommit p f errs s
  | .revert p f errs => Sys2Proof.Machine.execRevert p f errs s
  | .abort p f => Sys2Proof.Machine.execAbort p f s
  | .subscribe p f => Sys2Proof.Machine.execSubscribe p f s
  | .unsubscribe p f => Sys2Proof.Machine.execUnsubscribe p f s
  | .event p f => Sys2Proof.Machine.execEvent p f s
  | .unfreeze p f => Sys2Proof.Machine.execUnfreeze p f s
  | .identify p f => Sys2Proof.Machine.execIdentify p f s
  | .serviceFrameDiscard f => Sys2Proof.Machine.execServiceFrameDiscard f s
  | .selfUnfreeze p => Sys2Proof.Machine.execSelfUnfreeze p s
  | .protoPeriodEnd => Sys2Proof.Machine.execProtoPeriodEnd s
  | .linkCycleEnd c => Sys2Proof.Machine.execLinkCycleEnd c s
  | .windowSelect p h w v => Sys2Proof.Machine.execWindowSelect p h w v s
  | .mediaStart p h => Sys2Proof.Machine.execMediaStart p h s
  | .mediaStop p h => Sys2Proof.Machine.execMediaStop p h s
  | .mediaStartAbandon p h => Sys2Proof.Machine.execMediaStartAbandon p h s
  | .mediaLockDeclared => Sys2Proof.Machine.execMediaLockDeclared s
  | .lockTimeout => Sys2Proof.Machine.execLockTimeout s
  | .referenceLoss => Sys2Proof.Machine.execReferenceLoss s
  | .referenceReturn => Sys2Proof.Machine.execReferenceReturn s
  | .refFallbackSwitch => Sys2Proof.Machine.execRefFallbackSwitch s
  | .refReselect p h => Sys2Proof.Machine.execRefReselect p h s
  | .linkTimeSet p h v => Sys2Proof.Machine.execLinkTimeSet p h v s
  | .boundary => Sys2Proof.Machine.execBoundary s
  | .deferralTimeout p => Sys2Proof.Machine.execDeferralTimeout p s
  | .thermalEval t0 t1 t2 t3 => Sys2Proof.Machine.execThermalEval t0 t1 t2 t3 s
  | .envSegmentEnd n e => Sys2Proof.Machine.execEnvSegmentEnd n e s
  | .fadeLaneEnd n => Sys2Proof.Machine.execFadeLaneEnd n s
  | .seal u ticks => Sys2Proof.Machine.execSeal u ticks s
  | .crossCheckResult u equal => Sys2Proof.Machine.execCrossCheckResult u equal s
  | .eventQueueEntry p => Sys2Proof.Machine.execEventQueueEntry p s
  | .cycleHeaderRx l h m => Sys2Proof.Machine.execCycleHeaderRx l h m s
  | .dataFrameRx l node off b => Sys2Proof.Machine.execDataFrameRx l node off b s
  | .isoFrameRx l node off b => Sys2Proof.Machine.execIsoFrameRx l node off b s
  | .linkTrainingStart l => Sys2Proof.Machine.execLinkTrainingStart l s
  | .trainingTimeout l => Sys2Proof.Machine.execTrainingTimeout l s
  | .linkUp l lanes partner2 t => Sys2Proof.Machine.execLinkUp l lanes partner2 t s
  | .laneFail l lane => Sys2Proof.Machine.execLaneFail l lane s
  | .laneRealigned l => Sys2Proof.Machine.execLaneRealigned l s
  | .laneRestored l => Sys2Proof.Machine.execLaneRestored l s
  | .portDown l => Sys2Proof.Machine.execPortDown l s
  | .chainResync l n => Sys2Proof.Machine.execChainResync l n s
  | .chainDrop l n => Sys2Proof.Machine.execChainDrop l n s
  | .chainRejoinCmd l n => Sys2Proof.Machine.execChainRejoinCmd l n s
  | .rejoin p h l n => Sys2Proof.Machine.execRejoin p h l n s
  | .streamFetchLanded serial osc frames errs lat => Sys2Proof.Machine.execStreamFetchLanded serial osc frames errs lat s
  | .tuberScrub a st => Sys2Proof.Machine.execTuberScrub a st s
  | .lpddr5RetrainDone => Sys2Proof.Machine.execLpddr5RetrainDone s
  | .dmaDescriptor c errs => Sys2Proof.Machine.execDmaDescriptor c errs s
  | .dmaCompletion c => Sys2Proof.Machine.execDmaCompletion c s
  | .verify p h => Sys2Proof.Machine.execVerify p h s
  | .verifyDone errs => Sys2Proof.Machine.execVerifyDone errs s
  | .relocGo p h => Sys2Proof.Machine.execRelocGo p h s
  | .moveCopyDone errs => Sys2Proof.Machine.execMoveCopyDone errs s
  | .moveVerifyDone errs => Sys2Proof.Machine.execMoveVerifyDone errs s
  | .moveDone => Sys2Proof.Machine.execMoveDone s
  | .relocAbort p h => Sys2Proof.Machine.execRelocAbort p h s
  | .gourdScrub a m last => Sys2Proof.Machine.execGourdScrub a m last s
  | .delayExpiry tick => Sys2Proof.Machine.execDelayExpiry tick s
  | .qputResume q => Sys2Proof.Machine.execQputResume q s
  | .cntValue p h v => Sys2Proof.Machine.execCntValue p h v s
  | .kick p h => Sys2Proof.Machine.execKick p h s
  | .levelWrite p h v => Sys2Proof.Machine.execLevelWrite p h v s
  | .itemWrite p h v => Sys2Proof.Machine.execItemWrite p h v s
  | .take p h => Sys2Proof.Machine.execTake p h s
  | .flush p h => Sys2Proof.Machine.execFlush p h s
  | .digestMark p h v => Sys2Proof.Machine.execDigestMark p h v s
  | .faultClear p h => Sys2Proof.Machine.execFaultClear p h s
  | .watchdog u => Sys2Proof.Machine.execWatchdog u s
  | .retire p h u => Sys2Proof.Machine.execRetire p h u s
  | .readmit p h u => Sys2Proof.Machine.execReadmit p h u s
  | .selfTestDone u pass => Sys2Proof.Machine.execSelfTestDone u pass s
  | .periodicSpareTest => Sys2Proof.Machine.execPeriodicSpareTest s
  | .restore p h => Sys2Proof.Machine.execRestore p h s
  | .sapFrameStart n => Sys2Proof.Machine.execSapFrameStart n s
  | .sapInputFrame n levels => Sys2Proof.Machine.execSapInputFrame n levels s
  | .sapFramingError n => Sys2Proof.Machine.execSapFramingError n s
  | .sapClocksValid n rate bclk => Sys2Proof.Machine.execSapClocksValid n rate bclk s
  | .sapClockLoss n => Sys2Proof.Machine.execSapClockLoss n s
  | .asrcLock n ratio => Sys2Proof.Machine.execAsrcLock n ratio s
  | .cvStrobePin => Sys2Proof.Machine.execCvStrobePin s
  | .deglitchHoldEnd n => Sys2Proof.Machine.execDeglitchHoldEnd n s
  | .clrcvAssert => Sys2Proof.Machine.execClrcvAssert s
  | .clrcvRelease => Sys2Proof.Machine.execClrcvRelease s
  | .cvClear p h v => Sys2Proof.Machine.execCvClear p h v s
  | .dacLoadFault n compliance => Sys2Proof.Machine.execDacLoadFault n compliance s
  | .dacLoadFaultClear n compliance => Sys2Proof.Machine.execDacLoadFaultClear n compliance s
  | .senseScan => Sys2Proof.Machine.execSenseScan s
  | .senseCoarseReady n c pos => Sys2Proof.Machine.execSenseCoarseReady n c pos s
  | .senseConversion n x pos => Sys2Proof.Machine.execSenseConversion n x pos s
  | .strikeItemEntry => Sys2Proof.Machine.execStrikeItemEntry s
  | .timerTick n => Sys2Proof.Machine.execTimerTick n s
  | .tinEdge p rising frac => Sys2Proof.Machine.execTinEdge p rising frac s
  | .tcCntWrite p h n v => Sys2Proof.Machine.execTcCntWrite p h n v s
  | .tcCmpWrite p h n v => Sys2Proof.Machine.execTcCmpWrite p h n v s
  | .uartCharRx n c parity stop => Sys2Proof.Machine.execUartCharRx n c parity stop s
  | .uartRxTimeout n => Sys2Proof.Machine.execUartRxTimeout n s
  | .uartRxItemEntry n => Sys2Proof.Machine.execUartRxItemEntry n s
  | .uartTxDone n => Sys2Proof.Machine.execUartTxDone n s
  | .txResume p h n => Sys2Proof.Machine.execTxResume p h n s
  | .powerOn => Sys2Proof.Machine.execPowerOn s
  | .supplyMonitorReset rail => Sys2Proof.Machine.execSupplyMonitorReset rail s
  | .coldReset => Sys2Proof.Machine.execColdReset s
  | .warmReset => Sys2Proof.Machine.execWarmReset s
  | .resetReqCold p h => Sys2Proof.Machine.execResetReqCold p h s
  | .resetReqWarm p h => Sys2Proof.Machine.execResetReqWarm p h s
  | .resetRelease fuses train0 train1 => Sys2Proof.Machine.execResetRelease fuses train0 train1 s
  | .sleepRequest p h => Sys2Proof.Machine.execSleepRequest p h s
  | .wakeNAssert => Sys2Proof.Machine.execWakeNAssert s
  | .linkActivityWake l => Sys2Proof.Machine.execLinkActivityWake l s
  | .avsReadback ack mv => Sys2Proof.Machine.execAvsReadback ack mv s
  | .tapReset => Sys2Proof.Machine.execTapReset s
  | .extest => Sys2Proof.Machine.execExtest s
  | .samplePreload bits => Sys2Proof.Machine.execSamplePreload bits s
  | .clamp => Sys2Proof.Machine.execClamp s
  | .highz => Sys2Proof.Machine.execHighz s
  | .bypass => Sys2Proof.Machine.execBypass s
  | .kEnd core => Sys2Proof.Machine.execEnd core s
  | .kYield core => Sys2Proof.Machine.execYield core s
  | .kWait core => Sys2Proof.Machine.execWait core s
  | .kSleep core => Sys2Proof.Machine.execKSleep core s
  | .kSignal core => Sys2Proof.Machine.execSignal core s
  | .kQget core m => Sys2Proof.Machine.execQget core m s
  | .kQput core => Sys2Proof.Machine.execQput core s
  | .kQcount core => Sys2Proof.Machine.execQcount core s
  | .kPost core => Sys2Proof.Machine.execPost core s
  | .kBlock core => Sys2Proof.Machine.execBlock core s
  | .kUndefined core num => Sys2Proof.Machine.execKcallUndefined core num s
  | .fenceR core => Sys2Proof.Machine.execFenceR core s
  | .fenceW core => Sys2Proof.Machine.execFenceW core s
  | .fenceRw core => Sys2Proof.Machine.execFenceRw core s
  | .fenceI core => Sys2Proof.Machine.execFenceI core s
  | .rep core len1 count => Sys2Proof.Machine.execRep core len1 count s
  | .repReg core len1 g => Sys2Proof.Machine.execRepReg core len1 g s
  | .mfs core d => Sys2Proof.Machine.execMfs core d s
  | .mts core rs => Sys2Proof.Machine.execMts core rs s
  | .stclr core rs => Sys2Proof.Machine.execStclr core rs s
  | .mfbx core d => Sys2Proof.Machine.execMfbx core d s
  | .mtbx core rs => Sys2Proof.Machine.execMtbx core rs s
  | .add core d a b => Sys2Proof.Machine.execAdd core d a b s
  | .sub core d a b => Sys2Proof.Machine.execSub core d a b s
  | .and core d a b => Sys2Proof.Machine.execAnd core d a b s
  | .or core d a b => Sys2Proof.Machine.execOr core d a b s
  | .xor core d a b => Sys2Proof.Machine.execXor core d a b s
  | .shl core d a b => Sys2Proof.Machine.execShl core d a b s
  | .shr core d a b => Sys2Proof.Machine.execShr core d a b s
  | .sar core d a b => Sys2Proof.Machine.execSar core d a b s
  | .shli core d a c => Sys2Proof.Machine.execShli core d a c s
  | .shri core d a c => Sys2Proof.Machine.execShri core d a c s
  | .sari core d a c => Sys2Proof.Machine.execSari core d a c s
  | .mul core d a b => Sys2Proof.Machine.execMul core d a b s
  | .mulh core d a b => Sys2Proof.Machine.execMulh core d a b s
  | .mulhu core d a b => Sys2Proof.Machine.execMulhu core d a b s
  | .mulq core d a b => Sys2Proof.Machine.execMulq core d a b s
  | .adds core d a b => Sys2Proof.Machine.execAdds core d a b s
  | .subs core d a b => Sys2Proof.Machine.execSubs core d a b s
  | .min core d a b => Sys2Proof.Machine.execMin core d a b s
  | .max core d a b => Sys2Proof.Machine.execMax core d a b s
  | .clz core d a => Sys2Proof.Machine.execClz core d a s
  | .addi core d a imm => Sys2Proof.Machine.execAddi core d a imm s
  | .subi core d a imm => Sys2Proof.Machine.execSubi core d a imm s
  | .andi core d a imm => Sys2Proof.Machine.execAndi core d a imm s
  | .ori core d a imm => Sys2Proof.Machine.execOri core d a imm s
  | .xori core d a imm => Sys2Proof.Machine.execXori core d a imm s
  | .movhi core d imm => Sys2Proof.Machine.execMovhi core d imm s
  | .br core cond off => Sys2Proof.Machine.execBr core cond off s
  | .jmp core target => Sys2Proof.Machine.execJmp core target s
  | .jal core d target => Sys2Proof.Machine.execJal core d target s
  | .jr core a => Sys2Proof.Machine.execJr core a s
  | .ldb core o m => Sys2Proof.Machine.execLdb core o m s
  | .ldbu core o m => Sys2Proof.Machine.execLdbu core o m s
  | .ldh core o m => Sys2Proof.Machine.execLdh core o m s
  | .ldhu core o m => Sys2Proof.Machine.execLdhu core o m s
  | .ldw core o m => Sys2Proof.Machine.execLdw core o m s
  | .ldd core o m => Sys2Proof.Machine.execLdd core o m s
  | .stb core o m => Sys2Proof.Machine.execStb core o m s
  | .sth core o m => Sys2Proof.Machine.execSth core o m s
  | .stw core o m => Sys2Proof.Machine.execStw core o m s
  | .std core o m => Sys2Proof.Machine.execStd core o m s
  | .vld core o m0 m1 => Sys2Proof.Machine.execVld core o m0 m1 s
  | .vst core o m0 m1 => Sys2Proof.Machine.execVst core o m0 m1 s
  | .atomicAdd core o m => Sys2Proof.Machine.execAtomicAdd core o m s
  | .atomicAddD64 core o m => Sys2Proof.Machine.execAtomicAddD64 core o m s
  | .swap core o m => Sys2Proof.Machine.execSwap core o m s
  | .swapD64 core o m => Sys2Proof.Machine.execSwapD64 core o m s
  | .cas core o m => Sys2Proof.Machine.execCas core o m s
  | .casD64 core o m => Sys2Proof.Machine.execCasD64 core o m s
  | .cadd core rs a upd => Sys2Proof.Machine.execCadd core rs a upd s
  | .ldp core g bank rs word => Sys2Proof.Machine.execLdp core g bank rs word s
  | .stp core g bank rs word => Sys2Proof.Machine.execStp core g bank rs word s
  | .amov core g kind num dir => Sys2Proof.Machine.execAmov core g kind num dir s
  | .amod core a src imm => Sys2Proof.Machine.execAmod core a src imm s
  | .vmac core o => Sys2Proof.Machine.execVmac core o s
  | .vmsu core o => Sys2Proof.Machine.execVmsu core o s
  | .vmacs core o => Sys2Proof.Machine.execVmacs core o s
  | .vmsus core o => Sys2Proof.Machine.execVmsus core o s
  | .vwmac core o => Sys2Proof.Machine.execVwmac core o s
  | .vwmsu core o => Sys2Proof.Machine.execVwmsu core o s
  | .vwmacs core o => Sys2Proof.Machine.execVwmacs core o s
  | .vwmsus core o => Sys2Proof.Machine.execVwmsus core o s
  | .vextr core o => Sys2Proof.Machine.execVextr core o s
  | .vadd core vd va vb => Sys2Proof.Machine.execVadd core vd va vb s
  | .vadds core vd va vb => Sys2Proof.Machine.execVadds core vd va vb s
  | .vsub core vd va vb => Sys2Proof.Machine.execVsub core vd va vb s
  | .vsubs core vd va vb => Sys2Proof.Machine.execVsubs core vd va vb s
  | .vmulq core vd va vb => Sys2Proof.Machine.execVmulq core vd va vb s
  | .vand core vd va vb => Sys2Proof.Machine.execVand core vd va vb s
  | .vor core vd va vb => Sys2Proof.Machine.execVor core vd va vb s
  | .vxor core vd va vb => Sys2Proof.Machine.execVxor core vd va vb s
  | .vshl core vd va k => Sys2Proof.Machine.execVshl core vd va k s
  | .vshls core vd va k => Sys2Proof.Machine.execVshls core vd va k s
  | .vsar core vd va k => Sys2Proof.Machine.execVsar core vd va k s
  | .vsrr core vd va k => Sys2Proof.Machine.execVsrr core vd va k s
  | .vmin core vd va vb => Sys2Proof.Machine.execVmin core vd va vb s
  | .vmax core vd va vb => Sys2Proof.Machine.execVmax core vd va vb s
  | .vabs core vd va => Sys2Proof.Machine.execVabs core vd va s
  | .vneg core vd va => Sys2Proof.Machine.execVneg core vd va s
  | .vmov core vd va => Sys2Proof.Machine.execVmov core vd va s
  | .aclr core ac => Sys2Proof.Machine.execAclr core ac s
  | .acld core ac va k => Sys2Proof.Machine.execAcld core ac va k s
  | .vins core vd g lane => Sys2Proof.Machine.execVins core vd g lane s
  | .vext core g va lane => Sys2Proof.Machine.execVext core g va lane s
  | .vbc core vd g => Sys2Proof.Machine.execVbc core vd g s
  | .vrot core vd va lane => Sys2Proof.Machine.execVrot core vd va lane s
  | .vinsw core vd g e => Sys2Proof.Machine.execVinsw core vd g e s
  | .vextw core g va e => Sys2Proof.Machine.execVextw core g va e s
  | .vspl core vd va lane => Sys2Proof.Machine.execVspl core vd va lane s
  | .vsum core g va => Sys2Proof.Machine.execVsum core g va s
  | .bexp core va => Sys2Proof.Machine.execBexp core va s
  | .bnorm core a g n1 ms => Sys2Proof.Machine.execBnorm core a g n1 ms s
  | .undefinedInstruction core => Sys2Proof.Machine.execUndefinedInstruction core s
  | .sampleEgress => Sys2Proof.Machine.execSampleEgress s
  | .invalidServiceFrame p svc f => Sys2Proof.Machine.execInvalidServiceFrame p svc f s
  | .falseStart n => Sys2Proof.Machine.execFalseStart n s
  | .chainFrameForward l owner off b => Sys2Proof.Machine.execChainFrameForward l owner off b s

end Sys2Proof.Machine
end

