-- ==== Sys2Proof/Safety.lean ====
section
/-!
DEFINITION. Sys2Proof/Safety.lean: what a safe run of the block is (every step answers a next state: a fault of a part, a
refused service and a lost frame are states of the device) and the terms in which claims are stated: a thread in
dispatch, what a register instruction may change, the frame of an object's write.
-/
namespace Sys2Proof
open Machine

/-- The outcome is a next state. -/
def Completes (o : Host.Outcome State Fault Refusal) : Prop := ∃ t, o = .next t

/-- A command runs in a state. -/
def SafeAt (i : Instr) (s : State) : Prop := Completes (exec i s)

/-- Every waiting command names something that exists. -/
def queueOk (s : State) : Bool := s.pending.all Instr.wellFormed

/-- The device is awake: out of reset and out of sleep (23 R683, R687). -/
def Awake (s : State) : Prop := s.dev.power.phase = .awake

/-- Core n runs thread t (14 R416). -/
def Dispatched (s : State) (n t : Nat) : Prop :=
  Awake s ∧ (coreOf s.dev n).run = some t ∧ (thr s.dev t).st = .running

/-- The registers of thread t. -/
def regsOf (s : State) (t : Nat) : Regs := (thr s.dev t).regs

/-- Device e differs from d at most in the registers of thread t and in the prefetch buffer of core n. -/
def OnlyRegs (d e : Dev) (n t : Nat) : Prop :=
  { e with stalk := { e.stalk with threads := d.stalk.threads }, cores := d.cores } = d ∧
  (∀ x, x ≠ t → thr e x = thr d x) ∧ { thr e t with regs := (thr d t).regs } = thr d t ∧
  ∀ m, { coreOf e m with pbuf := (coreOf d m).pbuf } = coreOf d m ∧ (m ≠ n → coreOf e m = coreOf d m)

/-- The command answers the state u, in which the queue of commands is as before. -/
def Answers (i : Instr) (s u : State) : Prop := exec i s = .next u ∧ u.pending = s.pending

/-- PC and RCNT after an instruction that did not transfer control (15 R443): from REND with RCNT at or above 2 back to
RSTART with RCNT one less; from REND with RCNT 1 on to PC + 1 with RCNT 0; else on to PC + 1. -/
def NextPc (r r' : Regs) : Prop :=
  if r.pc = r.rend ∧ 2 ≤ r.rcnt.toNat then r'.pc = r.rstart ∧ r'.rcnt = r.rcnt - 1
  else if r.pc = r.rend ∧ r.rcnt = 1 then r'.pc = r.pc + 1 ∧ r'.rcnt = 0
  else r'.pc = r.pc + 1 ∧ r'.rcnt = r.rcnt

/-- Register files r and r' agree but for the fields that an instruction of the scalar unit may write: G, ST, and PC and
RCNT as NextPc says. -/
def ScalarFrame (r r' : Regs) : Prop :=
  NextPc r r' ∧ { r' with g := r.g, st := r.st, pc := r.pc, rcnt := r.rcnt } = r

/-- Gd takes v and every other G register is unchanged; G0 reads 0 whatever is written (14 R400). -/
def WritesG (r r' : Regs) (d : BitVec 5) (v : Word) : Prop :=
  ∀ x, gR r' x = if x = d ∧ d ≠ 0 then v else gR r x

/-- ST after an instruction that writes N and Z, and C and V where they are given; every other bit is unchanged. -/
def Flags (st st' : Word) (x : Word) (z : Bool) (c v : Option Bool) : Prop :=
  st'.getLsbD 0 = x.msb ∧ st'.getLsbD 1 = z ∧ st'.getLsbD 2 = c.getD (st.getLsbD 2) ∧
  st'.getLsbD 3 = v.getD (st.getLsbD 3) ∧ ∀ i, 4 ≤ i → st'.getLsbD i = st.getLsbD i

/-- A scalar instruction i on thread t of core n completes: Gd := x, ST by the flag rule, everything else unchanged. -/
def Alu (s : State) (n t : Nat) (i : Instr) (d : BitVec 5) (x : Word) (c v : Option Bool) : Prop :=
  ∃ u, Answers i s u ∧ OnlyRegs s.dev u.dev n t ∧ ScalarFrame (regsOf s t) (regsOf u t) ∧
    WritesG (regsOf s t) (regsOf u t) d x ∧ Flags (regsOf s t).st (regsOf u t).st x (x == 0) c v

/-- A vector instruction i on thread t of core n completes: lane l of Vd := f l, every other V register, ST and every other
register unchanged but for PC and RCNT. -/
def Lanes (s : State) (n t : Nat) (i : Instr) (vd : BitVec 4) (f : Nat → Int) : Prop :=
  ∃ u, Answers i s u ∧ OnlyRegs s.dev u.dev n t ∧ NextPc (regsOf s t) (regsOf u t) ∧
    (∀ x, x ≠ vd → vR (regsOf u t) x = vR (regsOf s t) x) ∧
    (∀ l, l < 8 → lane (vR (regsOf u t) vd) l = BitVec.ofInt 16 (f l)) ∧
    { regsOf u t with v := (regsOf s t).v, pc := (regsOf s t).pc, rcnt := (regsOf s t).rcnt } = regsOf s t

/-- A multiply-accumulate i completes: the lanes of accumulator `ac` take the values `f`, ST its sticky bits `f0 + l` where
`hit l` holds and is otherwise unchanged, and every other accumulator and register is unchanged but for PC and RCNT. -/
def MacStep (s : State) (n t : Nat) (i : Instr) (f0 : Nat) (hit : Nat → Bool) (ac : BitVec 2 → Nat → BitVec 40) : Prop :=
  ∃ u, Answers i s u ∧ OnlyRegs s.dev u.dev n t ∧ NextPc (regsOf s t) (regsOf u t) ∧
    (∀ a l, l < 8 → acLane (acR (regsOf u t) a) l = ac a l) ∧
    (∀ j, (regsOf u t).st.getLsbD j =
      ((regsOf s t).st.getLsbD j || (decide (f0 ≤ j) && decide (j < f0 + 8) && hit (j - f0)))) ∧
    { regsOf u t with ac := (regsOf s t).ac, st := (regsOf s t).st, pc := (regsOf s t).pc, rcnt := (regsOf s t).rcnt } =
      regsOf s t

/-- AD_a after an update by m (14 R428). -/
def stepped (r : Regs) (a : BitVec 3) (m : Int) : Word :=
  let ad := (aR r 0 a).toNat
  let bs := (aR r 1 a).toNat
  let ln := (aR r 2 a).toNat
  BitVec.ofInt 32 (if ln = 0 then (ad : Int) + m else bs + ((ad : Int) - bs + m) % ln)

/-- The core address of a format-M access (15 R449): AD_a, or in mode 3 the updated address. -/
def addrM (r : Regs) (o : MemOp) : Nat :=
  if o.mode = 3 then (stepped r o.a o.imm.toInt).toNat else (aR r 0 o.a).toNat

/-- AD_a after a format-M access: as it stands, updated by MD_a in mode 1, by the immediate in mode 2, as it was in mode 3
(15 R449). -/
def adAfterM (r : Regs) (o : MemOp) : Word :=
  if o.mode = 1 then stepped r o.a (aR r 3 o.a).toInt else if o.mode = 2 then stepped r o.a o.imm.toInt else aR r 0 o.a

/-- The address register of a format-M access takes its new value, and every other AD is unchanged. -/
def StepsAd (r r' : Regs) (o : MemOp) : Prop := ∀ x, aR r' 0 x = if x = o.a then adAfterM r o else aR r 0 x

/-- Registers agree but for G, V, AD, PC, RCNT. -/
def LoadFrame (r r' : Regs) : Prop :=
  NextPc r r' ∧ { r' with g := r.g, v := r.v, ad := r.ad, pc := r.pc, rcnt := r.rcnt } = r

/-- A pair of G registers takes a 64-bit value, the null pair takes nothing (15 R440). -/
def WritesPair (r r' : Regs) (d : BitVec 5) (v : Nat) : Prop :=
  ∀ x, gR r' x = if d = 0 then gR r x else if x = d then BitVec.ofNat 32 v
    else if x = d + 1 then BitVec.ofNat 32 (v / 2 ^ 32) else gR r x

/-- Imm is 0 in modes 0 and 1 (15 R449). -/
def FieldsM (o : MemOp) : Prop := o.imm = 0 ∨ o.mode = 2 ∨ o.mode = 3

/-- The command answers with device e; the queue of commands is as before. -/
def Makes (i : Instr) (s : State) (e : Dev) : Prop := exec i s = .next { s with dev := e }

/-- Frame f with service code svc arrives at port p, on device c: on a Link port it passes the guard test of a chain (17 R534) and
is forwarded on it (R529), has credit (R522), which c has used, and LEN is at most 64. -/
abbrev Arrives (s : State) (p svc : Nat) (f : Frame) (c : Dev) : Prop :=
  if p < 4 then receives s.dev p = true ∧ f.payload.length ≤ 64 ∧ (guardTest s.dev p f.node f.off).1 = true ∧
      takeCredit (forwardFrame (guardTest s.dev p f.node f.off).2 p f.node
        (svcFrame f.seq svc f.flags f.idx f.sub f.payload)) p f.node 0 = (true, c)
    else c = s.dev

/-- The request is executed at once, on device e: the device is awake, the port in session and with nothing to answer, and no answer is
kept under its SEQ (04 R112). -/
def Heard (s : State) (p svc : Nat) (f : Frame) (e : Dev) : Prop :=
  Awake s ∧ p < 8 ∧ (port s.dev p).session = true ∧ ∃ c : Dev, Arrives s p svc f c ∧
    (port c p).outq = [] ∧ keptResp c p f = none ∧
    e = modPort (queueOut c p (.req svc f c.time.anchor)) p (fun x => { x with outq := [] })

/-- The request repeats one whose response r is kept; nothing else waits on its port. -/
def Repeats (s : State) (p svc : Nat) (f : Frame) (r : Resp) (c : Dev) : Prop :=
  Awake s ∧ p < 8 ∧ (port s.dev p).session = true ∧ Arrives s p svc f c ∧ (port c p).outq = [] ∧ keptResp c p f = some r

/-- The request commands for a frame, each with its service code (04 R116). -/
def requests (p : Nat) (f : Frame) (errs : List (Nat × Bool)) : List (Nat × Instr) :=
  [(1, .read p f), (2, .write p f), (3, .blockRead p ⟨f, errs⟩), (4, .blockWrite p f), (5, .commit p f errs), (6, .revert p f errs),
   (7, .abort p f), (8, .subscribe p f), (9, .unsubscribe p f), (0x0A, .event p f), (0x0B, .unfreeze p f), (0x0C, .identify p f)]

/-- A response is sent unless it is OK under NORESP (04 R111), or its own request has ended the port's session (17 R544). -/
def sends (d : Dev) (p : Nat) (f : Frame) (code : Nat) : Bool := (port d p).session && !(code == 0 && bitOf f.flags 1)

/-- Device e is d with a request of port p answered: a response that is sent is kept (04 R112), and waits on a Link for
credit, on a UART for the FIFO, byte-stuffed (21 R640). Nothing else changes. -/
def Told (d e : Dev) (p : Nat) (f : Frame) (svc code : Nat) (b : List Byte) : Prop :=
  let out := svcFrame f.seq (128 + svc) code f.idx f.sub b
  let sent : Prop := sends d p f code = true
  port e p = { port d p with
    store := if sends d p f code then lastN 32 ((port d p).store ++ [⟨f.node, f.seq, svc, code, f.idx, f.sub, b⟩])
             else (port d p).store
    outq := [] } ∧
  (∀ q, q ≠ p → port e q = port d q) ∧
  (p < 4 → sent → linkOf e p = { linkOf d p with wait := (linkOf d p).wait ++ [⟨f.node, .service, out⟩] }) ∧
  (∀ l, l ≠ p ∨ 4 ≤ p ∨ ¬ sent → linkOf e l = linkOf d l) ∧
  (4 ≤ p → sent → uartOf e (p - 4) = { uartOf d (p - 4) with
    frames := (uartOf d (p - 4)).frames ++ [stuff d (p - 4) out] }) ∧
  (∀ n, n + 4 ≠ p ∨ ¬ sent → uartOf e n = uartOf d n) ∧
  { e with ports := d.ports, links := d.links, uarts := d.uarts } = d

/-- The command answers a request of port p with a code and payload b, its effect being device d. -/
def Reply (i : Instr) (s : State) (d : Dev) (p : Nat) (f : Frame) (svc code : Nat) (b : List Byte) : Prop :=
  ∃ u, Answers i s u ∧ Told d u.dev p f svc code b

/-- The request is one that port p executes: well formed, and the port not frozen or the request one that a frozen port
executes (04 R108, R141). -/
def Taken (e : Dev) (p svc : Nat) (f : Frame) : Prop :=
  badFrame svc f = false ∧ (frozen e p = false ∨ allowedFrozen p svc f = true)

/-- A version in which an RS value differs from another version's. -/
def Stages (v w : Version) (idx sub inst x : Nat) : Prop :=
  w = { v with vals := w.vals, caps := w.caps } ∧ vGet w idx sub inst = x ∧
  ∀ i b k, okey i b k ≠ okey idx sub inst → vGet w i b k = vGet v i b k

/-- The WRITE f of port p reaches the device awake and in session, passes the tests of 04 R736, and is the only write of its
object (instance inst) in its Link cycle, with nothing before it on its port and no reset or sleep asked for: it is applied
to device d, in which its quota is used and its answer waits (04 R126, R127). `off` is the FAULT_SEQ that a write of
FAULT_CLEAR keeps (05 R167). -/
def Alone (s : State) (p : Nat) (f : Frame) (inst off : Nat) (d : Dev) : Prop :=
  ∃ (e e1 : Dev) (r : ObjRef), Heard s p 2 f e ∧ badFrame 2 f = false ∧ frozen e p = false ∧ (port s.dev p).outq = [] ∧
    objAt f.idx f.sub = some r ∧ inst = selector e p r.row.win ∧ f.sub ≠ 0 ∧ (r.row.acc = .rw ∨ r.row.acc = .wo) ∧
    readOnly (accAt r inst) = false ∧ (∀ n, r.row.ty ≠ .dom n) ∧
    selectorOf f.idx f.sub = none ∧ ¬ (f.idx = 0x5A01 ∧ f.sub = 0x0A) ∧
    mayWrite e p (accAt r inst) f.idx f.sub = true ∧ ungranted e p f.idx f.sub inst = false ∧ takeQuota e p = some e1 ∧
    valueTest r inst f.payload = none ∧ off = (if f.idx = 0x0300 then oGet e 0x0300 1 else 0) ∧
    liveCode e1 f.idx f.sub inst off f.payload = 0 ∧
    (∀ w ∈ s.dev.live, ¬ (w.idx = f.idx ∧ w.sub = f.sub ∧ w.inst = inst)) ∧
    s.dev.power.resetReq = none ∧ s.dev.power.sleepReq = false ∧ d = queueOut e1 p (.live f 2 none)

/-- The WRITE that a row of the table for an object's write stands for: its port and its frame. -/
def writeOf : Instr → Option (Nat × Frame)
  | .windowSelect p h w v => some (p, writeFrame h (selAt w).1 (selAt w).2 2 v)
  | .mediaStart p h => some (p, writeFrame h 0x2000 0x01 1 1)
  | .mediaStop p h => some (p, writeFrame h 0x2000 0x01 1 0)
  | .mediaStartAbandon p h => some (p, writeFrame h 0x2000 0x01 1 0)
  | .refReselect p h => some (p, writeFrame h 0x2010 0x06 1 1)
  | .linkTimeSet p h v => some (p, writeFrame h 0x2020 0x0C 8 v)
  | .rejoin p h l n => some (p, writeFrame h (0x1140 + 8 * (l % 4) + n % 8) 0x05 1 1)
  | .verify p h => some (p, writeFrame h 0x6801 0x0B 1 1)
  | .relocGo p h => some (p, writeFrame h 0x6830 0x03 1 1)
  | .relocAbort p h => some (p, writeFrame h 0x6830 0x09 1 1)
  | .cntValue p h v => some (p, writeFrame h 0x5800 0x10 2 v)
  | .kick p h => some (p, writeFrame h 0x5801 0x0E 1 1)
  | .levelWrite p h v => some (p, writeFrame h 0x5801 0x05 1 v)
  | .take p h => some (p, writeFrame h 0x5A01 0x0A 1 1)
  | .flush p h => some (p, writeFrame h 0x5A01 0x0B 1 1)
  | .digestMark p h v => some (p, writeFrame h 0x0100 0x03 8 v)
  | .faultClear p h => some (p, writeFrame h 0x0300 0x04 1 1)
  | .cvClear p h v => some (p, writeFrame h 0x7420 0x05 1 (b2n v))
  | .restore p h => some (p, writeFrame h 0x8000 0x0B 1 1)
  | .retire p h u => some (p, writeFrame h (0x8100 + u % 128) 0x06 1 1)
  | .readmit p h u => some (p, writeFrame h (0x8100 + u % 128) 0x05 1 1)
  | .tcCntWrite p h n v => some (p, writeFrame h (0x7C00 + n % 16) 0x04 4 v)
  | .tcCmpWrite p h n v => some (p, writeFrame h (0x7C00 + n % 16) 0x05 4 v)
  | .txResume p h n => some (p, writeFrame h (0x7E00 + n % 4) 0x13 1 1)
  | .resetReqCold p h => some (p, writeFrame h 0x8230 0x01 1 1)
  | .resetReqWarm p h => some (p, writeFrame h 0x8230 0x01 1 2)
  | .sleepRequest p h => some (p, writeFrame h 0x8230 0x02 1 1)
  | _ => none

/-- Device x differs from d at most in the objects with the keys listed. -/
def OnlyObjs (d x : Dev) (l : List Nat) : Prop :=
  { x with obj := d.obj } = d ∧ ∀ i b k, okey i b k ∉ l → oGet x i b k = oGet d i b k

/-- The command i makes device e out of s, and e keeps every component but its objects. -/
def SetsObjs (i : Instr) (s : State) (e : Dev) (l : List Nat) : Prop := Makes i s e ∧ OnlyObjs s.dev e l

end Sys2Proof
end

