-- ==== Sys2Proof/Certificates/Slice0/Obligations.lean ====
section
/-!
DEFINITION. Sys2Proof/Certificates/Slice0/Obligations.lean: the statements for the provers.
-/
open Sys2Proof Sys2Proof.Machine

/-! ### Scalar instructions (15 R442-R448) -/

/-- 15 R444: Gd and the flags of the register forms of the scalar unit. The logical forms, the products, MIN and MAX leave
C and V; ADD and SUB set all four; the saturating sums set V exactly when they clamp and leave C.
15 R445: the immediate forms; imm is signed in ADDI and SUBI, zero-extended in the logical forms, and MOVHI writes
imm times 2^16 and no flag. -/
def Obligations.ScalarForms : Prop :=
  (∀ (s : State) (n t : Nat) (d a b : BitVec 5), Dispatched s n t →
    let x := gR (regsOf s t) a
    let y := gR (regsOf s t) b
    let out (v : Int) : Bool := decide (v < -(2 ^ 31) ∨ 2 ^ 31 ≤ v)
    let clamp (v : Int) : Word := BitVec.ofInt 32 (max (-(2 ^ 31)) (min (2 ^ 31 - 1) v))
    Alu s n t (.add n d a b) d (x + y) (some (decide (2 ^ 32 ≤ x.toNat + y.toNat))) (some (out (x.toInt + y.toInt))) ∧
    Alu s n t (.sub n d a b) d (x - y) (some (decide (y.toNat ≤ x.toNat))) (some (out (x.toInt - y.toInt))) ∧
    Alu s n t (.and n d a b) d (x &&& y) none none ∧
    Alu s n t (.or n d a b) d (x ||| y) none none ∧
    Alu s n t (.xor n d a b) d (x ^^^ y) none none ∧
    Alu s n t (.mul n d a b) d (BitVec.ofInt 32 (x.toInt * y.toInt)) none none ∧
    Alu s n t (.mulh n d a b) d (BitVec.ofInt 32 (x.toInt * y.toInt / 2 ^ 32)) none none ∧
    Alu s n t (.mulhu n d a b) d (BitVec.ofNat 32 (x.toNat * y.toNat / 2 ^ 32)) none none ∧
    Alu s n t (.mulq n d a b) d (clamp (rndConv (x.toInt * y.toInt) 31)) none none ∧
    Alu s n t (.adds n d a b) d (clamp (x.toInt + y.toInt)) none (some (out (x.toInt + y.toInt))) ∧
    Alu s n t (.subs n d a b) d (clamp (x.toInt - y.toInt)) none (some (out (x.toInt - y.toInt))) ∧
    Alu s n t (.min n d a b) d (if x.toInt < y.toInt then x else y) none none ∧
    Alu s n t (.max n d a b) d (if x.toInt < y.toInt then y else x) none none) ∧
  ∀ (s : State) (n t : Nat) (d a : BitVec 5) (imm : BitVec 16), Dispatched s n t →
    let x := gR (regsOf s t) a
    let y : Word := BitVec.ofInt 32 imm.toInt
    let z : Word := BitVec.ofNat 32 imm.toNat
    let out (v : Int) : Bool := decide (v < -(2 ^ 31) ∨ 2 ^ 31 ≤ v)
    Alu s n t (.addi n d a imm) d (x + y) (some (decide (2 ^ 32 ≤ x.toNat + y.toNat))) (some (out (x.toInt + imm.toInt))) ∧
    Alu s n t (.subi n d a imm) d (x - y) (some (decide (y.toNat ≤ x.toNat))) (some (out (x.toInt - imm.toInt))) ∧
    Alu s n t (.andi n d a imm) d (x &&& z) none none ∧
    Alu s n t (.ori n d a imm) d (x ||| z) none none ∧
    Alu s n t (.xori n d a imm) d (x ^^^ z) none none ∧
    ∃ u, Answers (.movhi n d imm) s u ∧ OnlyRegs s.dev u.dev n t ∧ ScalarFrame (regsOf s t) (regsOf u t) ∧
      WritesG (regsOf s t) (regsOf u t) d (BitVec.ofNat 32 (imm.toNat * 2 ^ 16)) ∧ (regsOf u t).st = (regsOf s t).st

/-- 15 R444: the shifts by Gb[4:0] and by the b field, and CLZ. A shift sets C to the last bit shifted out and keeps it for
a count of 0; CLZ counts leading zeros, so the result k is 32 for 0, and else bit 31 - k of Ga is its highest set bit. -/
def Obligations.ShiftsAndLeadingZeros : Prop :=
  ∀ (s : State) (n t : Nat) (d a b : BitVec 5), Dispatched s n t →
    let x := gR (regsOf s t) a
    let left (c : Nat) (i : Instr) : Prop := Alu s n t i d (BitVec.ofInt 32 (x.toInt * 2 ^ c))
      (if c = 0 then none else some (x.getLsbD (32 - c))) none
    let logical (c : Nat) (i : Instr) : Prop := Alu s n t i d (BitVec.ofNat 32 (x.toNat / 2 ^ c))
      (if c = 0 then none else some (x.getLsbD (c - 1))) none
    let arith (c : Nat) (i : Instr) : Prop := Alu s n t i d (BitVec.ofInt 32 (x.toInt / 2 ^ c))
      (if c = 0 then none else some (x.getLsbD (c - 1))) none
    let c := (gR (regsOf s t) b).toNat % 32
    left c (.shl n d a b) ∧ logical c (.shr n d a b) ∧ arith c (.sar n d a b) ∧
    left b.toNat (.shli n d a b) ∧ logical b.toNat (.shri n d a b) ∧ arith b.toNat (.sari n d a b) ∧
    ∃ k : Nat, k ≤ 32 ∧ (k < 32 → x.getLsbD (31 - k) = true) ∧ (∀ j, j < k → x.getLsbD (31 - j) = false) ∧
      Alu s n t (.clz n d a) d (BitVec.ofNat 32 k) none none

/-- 15 R442: ST and BX. MTS writes ST[22:0], STCLR clears the bits set in Gs, and ST[31:23] then read 0; MTBX sets HEAD
and SCALE of BX, whose other fields read 0; MFS and MFBX copy them to Gd. An MFS while a dropped direct store is not yet
shown (14 R425) may read CONF as it stands or set, by a free value. The model's choices here are log entry 14. -/
def Obligations.StatusRegisters : Prop :=
  ∀ (s : State) (n t : Nat) (g : BitVec 5), Dispatched s n t →
    let r := regsOf s t
    let v := gR r g
    (∃ u, Answers (.mfs n g) s u ∧ OnlyRegs { s.dev with free := u.dev.free } u.dev n t ∧
      ScalarFrame r (regsOf u t) ∧ (regsOf u t).st = r.st ∧
      ((thr s.dev t).conf = false → u.dev.free = s.dev.free ∧ WritesG r (regsOf u t) g r.st) ∧
      (WritesG r (regsOf u t) g r.st ∨ WritesG r (regsOf u t) g (r.st ||| 0x200000#32))) ∧
    (∃ u, Answers (.mts n g) s u ∧ OnlyRegs s.dev u.dev n t ∧ ScalarFrame r (regsOf u t) ∧ (regsOf u t).g = r.g ∧
      ∀ i, (regsOf u t).st.getLsbD i = (decide (i ≤ 22) && v.getLsbD i)) ∧
    (∃ u, Answers (.stclr n g) s u ∧ OnlyRegs s.dev u.dev n t ∧ ScalarFrame r (regsOf u t) ∧ (regsOf u t).g = r.g ∧
      ∀ i, (regsOf u t).st.getLsbD i = (decide (i ≤ 22) && r.st.getLsbD i && !v.getLsbD i)) ∧
    (∃ u, Answers (.mfbx n g) s u ∧ OnlyRegs s.dev u.dev n t ∧ ScalarFrame r (regsOf u t) ∧
      (regsOf u t).st = r.st ∧ WritesG r (regsOf u t) g r.bx) ∧
    (∃ u, Answers (.mtbx n g) s u ∧ OnlyRegs s.dev u.dev n t ∧ NextPc r (regsOf u t) ∧
      { regsOf u t with bx := r.bx, pc := r.pc, rcnt := r.rcnt } = r ∧
      ∀ i, (regsOf u t).bx.getLsbD i = ((decide (i ≤ 3) || (decide (8 ≤ i) && decide (i ≤ 15))) && v.getLsbD i))

/-- 15 R446, R447, R443: a taken branch or jump goes to its target and sets RCNT to 0; a branch that is not taken goes on
by the loop rule. JAL writes (PC + 1) mod 8,192 to Gd, and JR ignores Ga[31:13]. -/
def Obligations.BranchesAndJumps : Prop :=
  ∀ (s : State) (n t : Nat) (g : BitVec 5) (c : BitVec 4) (off : BitVec 13), Dispatched s n t →
    let r := regsOf s t
    let N := r.st.getLsbD 0
    let Z := r.st.getLsbD 1
    let C := r.st.getLsbD 2
    let V := r.st.getLsbD 3
    let ov : Bool := (List.range 8).any (fun l => r.st.getLsbD (4 + l))
    let taken : Bool := [Z, !Z, C, !C, N, !N, V, !V, C && !Z, !C || Z, N == V, N != V, !Z && N == V, Z || N != V, true,
      ov].getD c.toNat false
    let jumps (i : Instr) (target : BitVec 13) : Prop := ∃ u, Answers i s u ∧ OnlyRegs s.dev u.dev n t ∧
      regsOf u t = { r with g := (regsOf u t).g, pc := target, rcnt := 0 }
    (taken = true → jumps (.br n c off) (r.pc + off) ∧
      ∀ u, Answers (.br n c off) s u → (regsOf u t).g = r.g) ∧
    (taken = false → ∃ u, Answers (.br n c off) s u ∧ OnlyRegs s.dev u.dev n t ∧ NextPc r (regsOf u t) ∧
      { regsOf u t with pc := r.pc, rcnt := r.rcnt } = r) ∧
    (jumps (.jmp n off) off ∧ ∀ u, Answers (.jmp n off) s u → (regsOf u t).g = r.g) ∧
    (jumps (.jal n g off) off ∧
      ∀ u, Answers (.jal n g off) s u → WritesG r (regsOf u t) g (BitVec.ofNat 32 ((r.pc.toNat + 1) % 8192))) ∧
    (jumps (.jr n g) (BitVec.ofNat 13 (gR r g).toNat) ∧ ∀ u, Answers (.jr n g) s u → (regsOf u t).g = r.g)

/-- 15 R443: REP with an immediate count and with the count Gg[15:0] sets RSTART, REND and RCNT and goes on at PC + 1; a
count of 0 goes on at REND + 1 as a taken transfer. A loop under way is replaced. -/
def Obligations.RepeatLoops : Prop :=
  ∀ (s : State) (n t : Nat) (g : BitVec 5) (len1 : BitVec 7) (count : BitVec 15), Dispatched s n t →
    let r := regsOf s t
    let last := r.pc + BitVec.ofNat 13 (len1.toNat + 1)
    let begins (i : Instr) (k : Nat) : Prop := ∃ u, Answers i s u ∧ OnlyRegs s.dev u.dev n t ∧
      regsOf u t = { r with pc := if k = 0 then last + 1 else r.pc + 1, rstart := r.pc + 1, rend := last,
                            rcnt := BitVec.ofNat 16 k }
    begins (.rep n len1 count) count.toNat ∧ begins (.repReg n len1 g) ((gR r g).toNat % 65536)

/-- 13 R383, 14 R413, R425: the fences change no register but PC and RCNT; FENCE.W and FENCE.RW show a dropped direct store
in ST.CONF. -/
def Obligations.Fences : Prop :=
  ∀ (s : State) (n t : Nat), Dispatched s n t →
    let r := regsOf s t
    let quiet (i : Instr) : Prop := ∃ u, Answers i s u ∧ OnlyRegs s.dev u.dev n t ∧ NextPc r (regsOf u t) ∧
      { regsOf u t with pc := r.pc, rcnt := r.rcnt } = r
    let shows (i : Instr) : Prop := if (thr s.dev t).conf then
        ∃ u, Answers i s u ∧ (thr u.dev t).conf = false ∧ NextPc r (regsOf u t) ∧
          { regsOf u t with pc := r.pc, rcnt := r.rcnt } = { r with st := r.st ||| 0x200000#32 }
      else quiet i
    quiet (.fenceR n) ∧ quiet (.fenceI n) ∧ shows (.fenceW n) ∧ shows (.fenceRw n)

/-- 15 R448, 14 R428: AMOV moves between Gg and AD, BS, LN or MD; AMOD adds the modifier m, MD_a or the immediate, to
AD_a: plainly where LN_a is 0, else within the buffer that begins at BS_a and has LN_a bytes. With SRC 0 and an immediate other
than 0 the word is undefined. -/
def Obligations.AddressRegisters : Prop :=
  ∀ (s : State) (n t : Nat) (g : BitVec 5) (kind : BitVec 2) (i : BitVec 3) (src : Bool) (imm : BitVec 16),
    Dispatched s n t →
    let r := regsOf s t
    let reads (k : BitVec 2) (j : BitVec 3) (r : Regs) : Word := aR r k j
    (∃ u, Answers (.amov n g kind i true) s u ∧ OnlyRegs s.dev u.dev n t ∧ ScalarFrame r (regsOf u t) ∧
      (regsOf u t).st = r.st ∧ WritesG r (regsOf u t) g (aR r kind i)) ∧
    (∃ u, Answers (.amov n g kind i false) s u ∧ OnlyRegs s.dev u.dev n t ∧ NextPc r (regsOf u t) ∧
      (∀ k j, reads k j (regsOf u t) = if k = kind ∧ j = i then gR r g else reads k j r) ∧
      { regsOf u t with ad := r.ad, bs := r.bs, ln := r.ln, md := r.md, pc := r.pc, rcnt := r.rcnt } = r) ∧
    let m : Int := if src then imm.toInt else (aR r 3 i).toInt
    let ad := (aR r 0 i).toNat
    let bs := (aR r 1 i).toNat
    let ln := (aR r 2 i).toNat
    let new : Int := if ln = 0 then ad + m else bs + ((ad : Int) - bs + m) % ln
    ((src = true ∨ imm = 0) → ∃ u, Answers (.amod n i src imm) s u ∧ OnlyRegs s.dev u.dev n t ∧ NextPc r (regsOf u t) ∧
      (∀ k j, reads k j (regsOf u t) = if k = 0 ∧ j = i then BitVec.ofInt 32 new else reads k j r) ∧
      { regsOf u t with ad := r.ad, pc := r.pc, rcnt := r.rcnt } = r) ∧
    (src = false → imm ≠ 0 → exec (.amod n i src imm) s = exec (.undefinedInstruction n) s)

/-! ### Vector instructions (15 R457-R463) -/

/-- 15 R457: every lane form of VALU. -/
def Obligations.VectorLaneForms : Prop :=
  ∀ (s : State) (n t : Nat) (vd va vb k : BitVec 4), Dispatched s n t →
    let a (l : Nat) : Int := (lane (vR (regsOf s t) va) l).toInt
    let b (l : Nat) : Int := (lane (vR (regsOf s t) vb) l).toInt
    let ua (l : Nat) : Nat := (lane (vR (regsOf s t) va) l).toNat
    let ub (l : Nat) : Nat := (lane (vR (regsOf s t) vb) l).toNat
    let clamp (v : Int) : Int := max (-32768) (min 32767 v)
    Lanes s n t (.vadd n vd va vb) vd (fun l => a l + b l) ∧
    Lanes s n t (.vadds n vd va vb) vd (fun l => clamp (a l + b l)) ∧
    Lanes s n t (.vsub n vd va vb) vd (fun l => a l - b l) ∧
    Lanes s n t (.vsubs n vd va vb) vd (fun l => clamp (a l - b l)) ∧
    Lanes s n t (.vmulq n vd va vb) vd (fun l => clamp (rndConv (2 * a l * b l) 16)) ∧
    Lanes s n t (.vand n vd va vb) vd (fun l => (ua l &&& ub l : Nat)) ∧
    Lanes s n t (.vor n vd va vb) vd (fun l => (ua l ||| ub l : Nat)) ∧
    Lanes s n t (.vxor n vd va vb) vd (fun l => (ua l ^^^ ub l : Nat)) ∧
    Lanes s n t (.vshl n vd va k) vd (fun l => a l * 2 ^ k.toNat) ∧
    Lanes s n t (.vshls n vd va k) vd (fun l => clamp (a l * 2 ^ k.toNat)) ∧
    Lanes s n t (.vsar n vd va k) vd (fun l => a l / 2 ^ k.toNat) ∧
    Lanes s n t (.vsrr n vd va k) vd (fun l => rndConv (a l) k.toNat) ∧
    Lanes s n t (.vmin n vd va vb) vd (fun l => min (a l) (b l)) ∧
    Lanes s n t (.vmax n vd va vb) vd (fun l => max (a l) (b l)) ∧
    Lanes s n t (.vabs n vd va) vd (fun l => clamp (max (a l) (-(a l)))) ∧
    Lanes s n t (.vneg n vd va) vd (fun l => clamp (-(a l))) ∧
    Lanes s n t (.vmov n vd va) vd a

/-- 15 R458, 14 R405, R406: the lane multiply-accumulates with I, Z and L. A wrapping form sets OV of the lanes whose exact
result leaves 40 bits, a saturating form clamps and sets SAT of them; k other than 0 without L is an undefined word. -/
def Obligations.MultiplyAccumulate : Prop :=
  ∀ (s : State) (n t : Nat) (o : MacOp), Dispatched s n t →
    let r := regsOf s t
    let exact (neg : Bool) (l : Nat) : Int :=
      let a := (lane (vR r o.va) l).toInt
      let b := (lane (vR r o.vb) (if o.l then o.k.toNat else l)).toInt
      let p := if o.i then a * b else 2 * a * b
      (if o.z then 0 else (acLane (acR r o.ac) l).toInt) + (if neg then -p else p)
    let outside (neg : Bool) (l : Nat) : Bool := decide (exact neg l < -(2 ^ 39) ∨ 2 ^ 39 ≤ exact neg l)
    let wraps (neg : Bool) (a : BitVec 2) (l : Nat) : BitVec 40 :=
      if a = o.ac then BitVec.ofInt 40 (exact neg l) else acLane (acR r a) l
    let clamps (neg : Bool) (a : BitVec 2) (l : Nat) : BitVec 40 :=
      if a = o.ac then BitVec.ofInt 40 (max (-(2 ^ 39)) (min (2 ^ 39 - 1) (exact neg l))) else acLane (acR r a) l
    ((o.l = true ∨ o.k = 0) →
      MacStep s n t (.vmac n o) 4 (outside false) (wraps false) ∧ MacStep s n t (.vmsu n o) 4 (outside true) (wraps true) ∧
      MacStep s n t (.vmacs n o) 12 (outside false) (clamps false) ∧
      MacStep s n t (.vmsus n o) 12 (outside true) (clamps true)) ∧
    (o.l = false → o.k ≠ 0 → ∀ i ∈ [Instr.vmac n o, .vmsu n o, .vmacs n o, .vmsus n o],
      exec i s = exec (.undefinedInstruction n) s)

/-- 15 R459, 14 R408: the wide multiply-accumulates. Wide lane w of the pair AC0:AC1 or AC2:AC3 keeps its 80 bits in lane
4w of both registers, the other lanes of the pair are unchanged, and OV or SAT of lanes 4w to 4w + 3 is set. -/
def Obligations.WideMultiplyAccumulate : Prop :=
  ∀ (s : State) (n t : Nat) (o : WMacOp), Dispatched s n t →
    let r := regsOf s t
    let e : BitVec 2 := if o.hiPair then 2 else 0
    let wide (w : Nat) : Int := (acLane (acR r (e + 1)) (4 * w) ++ acLane (acR r e) (4 * w) : BitVec 80).toInt
    let el (v : BitVec 4) (j : Nat) : Int := (lane (vR r v) (2 * j + 1) ++ lane (vR r v) (2 * j) : BitVec 32).toInt
    let exact (neg : Bool) (w : Nat) : Int :=
      let j := if o.h then w + 2 else w
      let p := 2 * el o.va j * el o.vb j
      (if o.z then 0 else wide w) + (if neg then -p else p)
    let outside (neg : Bool) (l : Nat) : Bool :=
      decide (exact neg (l / 4) < -(2 ^ 79) ∨ 2 ^ 79 ≤ exact neg (l / 4))
    let lanes (x : Nat → Int) (a : BitVec 2) (l : Nat) : BitVec 40 :=
      if a = e ∧ l % 4 = 0 then (BitVec.ofInt 80 (x (l / 4))).extractLsb' 0 40
      else if a = e + 1 ∧ l % 4 = 0 then (BitVec.ofInt 80 (x (l / 4))).extractLsb' 40 40
      else acLane (acR r a) l
    let clamp (x : Int) : Int := max (-(2 ^ 79)) (min (2 ^ 79 - 1) x)
    MacStep s n t (.vwmac n o) 4 (outside false) (lanes (exact false)) ∧
    MacStep s n t (.vwmsu n o) 4 (outside true) (lanes (exact true)) ∧
    MacStep s n t (.vwmacs n o) 12 (outside false) (lanes (fun w => clamp (exact false w))) ∧
    MacStep s n t (.vwmsus n o) 12 (outside true) (lanes (fun w => clamp (exact true w)))

/-- 15 R460, R461, 14 R407: the lane extract rounds and clamps every lane of the accumulator into Vd, sets SAT of the lanes
it clamped, and with C clears the accumulator; ACLR clears an accumulator; ACLD loads its lanes scaled by 2^(16 - k). -/
def Obligations.ExtractAndAccumulators : Prop :=
  ∀ (s : State) (n t : Nat) (vd va : BitVec 4) (ac : BitVec 2) (k : BitVec 5) (c : Bool), Dispatched s n t →
    -8 ≤ k.toInt →
    let r := regsOf s t
    let x (l : Nat) : Int := rndConv (acLane (acR r ac) l).toInt (16 - k.toInt).toNat
    (∃ u, Answers (.vextr n ⟨vd, ac, k, false, false, c⟩) s u ∧ OnlyRegs s.dev u.dev n t ∧ NextPc r (regsOf u t) ∧
      (∀ y l, l < 8 → lane (vR (regsOf u t) y) l =
        if y = vd then BitVec.ofInt 16 (max (-32768) (min 32767 (x l))) else lane (vR r y) l) ∧
      (∀ a, acR (regsOf u t) a = if a = ac ∧ c = true then 0 else acR r a) ∧
      (∀ j, (regsOf u t).st.getLsbD j = (r.st.getLsbD j || (decide (12 ≤ j) && decide (j < 20) &&
        decide (x (j - 12) < -32768 ∨ 32768 ≤ x (j - 12))))) ∧
      { regsOf u t with v := r.v, ac := r.ac, st := r.st, pc := r.pc, rcnt := r.rcnt } = r) ∧
    MacStep s n t (.aclr n ac) 4 (fun _ => false) (fun a l => if a = ac then 0 else acLane (acR r a) l) ∧
    MacStep s n t (.acld n ac va k) 4 (fun _ => false) (fun a l =>
      if a = ac then BitVec.ofInt 40 ((lane (vR r va) l).toInt * 2 ^ (16 - k.toInt).toNat) else acLane (acR r a) l)

/-- 15 R460, 14 R408: the wide extract writes elements e of Vd (w, or w + 2 with H) from the two wide lanes of the pair that
ac names, sets SAT of lanes 4w to 4w + 3 where it clamped, and with C clears the wide lanes; fields that R460 does not
allow make the word undefined. -/
def Obligations.WideExtract : Prop :=
  ∀ (s : State) (n t : Nat) (o : ExtrOp), Dispatched s n t →
    let r := regsOf s t
    let ok : Prop := -8 ≤ o.k.toInt ∧ (o.h = true → o.w = true) ∧ (o.w = true → o.ac = 0 ∨ o.ac = 2)
    let wide (w : Nat) : Int := (acLane (acR r (o.ac + 1)) (4 * w) ++ acLane (acR r o.ac) (4 * w) : BitVec 80).toInt
    let x (w : Nat) : Int := rndConv (wide w) (32 - o.k.toInt).toNat
    let first : Nat := if o.h then 2 else 0
    (ok → o.w = true → ∃ u, Answers (.vextr n o) s u ∧ OnlyRegs s.dev u.dev n t ∧ NextPc r (regsOf u t) ∧
      (∀ y, y ≠ o.vd → vR (regsOf u t) y = vR r y) ∧
      (∀ j, j < 4 → elem (vR (regsOf u t) o.vd) j = if first ≤ j ∧ j < first + 2
        then BitVec.ofInt 32 (max (-(2 ^ 31)) (min (2 ^ 31 - 1) (x (j - first)))) else elem (vR r o.vd) j) ∧
      (∀ a l, l < 8 → acLane (acR (regsOf u t) a) l =
        if o.c = true ∧ (a = o.ac ∨ a = o.ac + 1) ∧ l % 4 = 0 then 0 else acLane (acR r a) l) ∧
      (∀ j, (regsOf u t).st.getLsbD j = (r.st.getLsbD j || (decide (12 ≤ j) && decide (j < 20) &&
        decide (x ((j - 12) / 4) < -(2 ^ 31) ∨ 2 ^ 31 ≤ x ((j - 12) / 4))))) ∧
      { regsOf u t with v := r.v, ac := r.ac, st := r.st, pc := r.pc, rcnt := r.rcnt } = r) ∧
    (¬ ok → exec (.vextr n o) s = exec (.undefinedInstruction n) s)

/-- 15 R462: moves between lanes, elements and G registers; VSUM is the exact sum of the eight lanes. -/
def Obligations.LaneTransfers : Prop :=
  ∀ (s : State) (n t : Nat) (vd va : BitVec 4) (g : BitVec 5) (k : BitVec 3) (e : BitVec 2), Dispatched s n t →
    let r := regsOf s t
    let low : Int := (BitVec.ofNat 16 (gR r g).toNat).toInt
    let a (l : Nat) : Int := (lane (vR r va) l).toInt
    let old (l : Nat) : Int := (lane (vR r vd) l).toInt
    let scalar (i : Instr) (v : Word) : Prop := ∃ u, Answers i s u ∧ OnlyRegs s.dev u.dev n t ∧
      ScalarFrame r (regsOf u t) ∧ (regsOf u t).st = r.st ∧ WritesG r (regsOf u t) g v
    Lanes s n t (.vins n vd g k) vd (fun l => if l = k.toNat then low else old l) ∧
    scalar (.vext n g va k) (BitVec.ofInt 32 (a k.toNat)) ∧
    Lanes s n t (.vbc n vd g) vd (fun _ => low) ∧
    Lanes s n t (.vrot n vd va k) vd (fun l => a ((l + k.toNat) % 8)) ∧
    Lanes s n t (.vinsw n vd g e) vd (fun l => if l = 2 * e.toNat then low
      else if l = 2 * e.toNat + 1 then ((gR r g).toNat / 65536 : Nat) else old l) ∧
    scalar (.vextw n g va e) (lane (vR r va) (2 * e.toNat + 1) ++ lane (vR r va) (2 * e.toNat)) ∧
    Lanes s n t (.vspl n vd va k) vd (fun _ => a k.toNat) ∧
    scalar (.vsum n g va) (BitVec.ofInt 32 (a 0 + a 1 + a 2 + a 3 + a 4 + a 5 + a 6 + a 7))

/-- 14 R409: BEXP lowers HEAD to the least headroom h of the lanes of Va and leaves SCALE: h redundant sign bits stand in every
lane, and not h + 1 in all of them, up to 15. -/
def Obligations.BlockExponent : Prop :=
  ∀ (s : State) (n t : Nat) (va : BitVec 4), Dispatched s n t →
    let r := regsOf s t
    let head : Nat := r.bx.toNat % 16
    let fits (h l : Nat) : Prop := -(2 ^ (15 - h)) ≤ (lane (vR r va) l).toInt ∧ (lane (vR r va) l).toInt < 2 ^ (15 - h)
    ∃ u h, Answers (.bexp n va) s u ∧ OnlyRegs s.dev u.dev n t ∧ NextPc r (regsOf u t) ∧ h ≤ 15 ∧
      (∀ l, l < 8 → fits h l) ∧ (h < 15 → ∃ l, l < 8 ∧ ¬ fits (h + 1) l) ∧
      (regsOf u t).bx.toNat = r.bx.toNat / 256 % 256 * 256 + min head h ∧
      { regsOf u t with bx := r.bx, pc := r.pc, rcnt := r.rcnt } = r

/-! ### Loads, stores, atomics (15 R449-R456, 14 R420-R426) -/

/-- 15 R449-R451, 14 R420: a load from local data memory, aligned and inside its 128 KiB, takes the bytes at its core address
into its register, updates AD_a as the mode says, and changes nothing else. -/
def Obligations.LoadsOfLocalMemory : Prop :=
  ∀ (s : State) (n t : Nat) (o : MemOp) (m m' : MemSt), Dispatched s n t → FieldsM o →
    let r := regsOf s t
    let bytes (len : Nat) : Nat := fromLE (mread (coreOf s.dev n).mem (addrM r o) len)
    let fits (len : Nat) : Prop := addrM r o % len = 0 ∧ addrM r o + len ≤ 0x20000
    let loads (i : Instr) (P : Regs → Prop) : Prop := ∃ u, Answers i s u ∧ OnlyRegs s.dev u.dev n t ∧
      LoadFrame r (regsOf u t) ∧ StepsAd r (regsOf u t) o ∧ P (regsOf u t)
    let scalar (i : Instr) (v : Word) : Prop := loads i (fun q => q.v = r.v ∧ WritesG r q o.r v)
    (fits 1 → scalar (.ldb n o m) ((BitVec.ofNat 8 (bytes 1)).signExtend 32) ∧ scalar (.ldbu n o m) (BitVec.ofNat 32 (bytes 1))) ∧
    (fits 2 → scalar (.ldh n o m) ((BitVec.ofNat 16 (bytes 2)).signExtend 32) ∧ scalar (.ldhu n o m) (BitVec.ofNat 32 (bytes 2))) ∧
    (fits 4 → scalar (.ldw n o m) (BitVec.ofNat 32 (bytes 4))) ∧
    (o.r.getLsbD 0 = false → fits 8 → loads (.ldd n o m) (fun q => q.v = r.v ∧ WritesPair r q o.r (bytes 8))) ∧
    (o.r.getLsbD 0 = false → fits 16 → loads (.vld n o m m') (fun q => q.g = r.g ∧
      ∀ x, vR q x = if x = o.r.extractLsb' 1 4 then BitVec.ofNat 128 (bytes 16) else vR r x))

/-- 15 R449-R451, 14 R422: a store to local data memory, aligned, inside it and above the constant area of its version, replaces the bytes
from its core address up to its length and no other byte of any memory, and updates AD_a as the mode says. -/
def Obligations.StoresToLocalMemory : Prop :=
  ∀ (s : State) (n t : Nat) (o : MemOp) (m m' : MemSt), Dispatched s n t → FieldsM o →
    let r := regsOf s t
    let a := addrM r o
    let fits (len : Nat) : Prop := a % len = 0 ∧ a + len ≤ 0x20000 ∧ constKept s.dev n ≤ a
    let stores (i : Instr) (len v : Nat) : Prop := ∃ u, Answers i s u ∧
      OnlyRegs (modCore s.dev n (fun c => { c with mem := (coreOf u.dev n).mem })) u.dev n t ∧
      (∀ b, mget 0#8 (coreOf u.dev n).mem b =
        if a ≤ b ∧ b < a + len then BitVec.ofNat 8 (v / 256 ^ (b - a)) else mget 0#8 (coreOf s.dev n).mem b) ∧
      LoadFrame r (regsOf u t) ∧ StepsAd r (regsOf u t) o ∧ (regsOf u t).g = r.g ∧ (regsOf u t).v = r.v
    let g := (gR r o.r).toNat
    (fits 1 → stores (.stb n o m) 1 g) ∧ (fits 2 → stores (.sth n o m) 2 g) ∧ (fits 4 → stores (.stw n o m) 4 g) ∧
    (o.r.getLsbD 0 = false → fits 8 →
      stores (.std n o m) 8 (if o.r = 0 then 0 else g + 2 ^ 32 * (gR r (o.r + 1)).toNat)) ∧
    (o.r.getLsbD 0 = false → fits 16 → stores (.vst n o m m') 16 (vR r (o.r.extractLsb' 1 4)).toNat)

/-- 14 R423-R425, 03 R88, 13 R373, R374: a load of a thread that runs no block, or a D form in a block, from Gourd, through a window with RD, reads the bytes as
they stand; a corrected error also counts in CE_COUNT of the bank. An uncorrectable error, or a poisoned word, gives 0 and
sets ST.UE, and the word is poisoned. A vector load makes two such accesses, the lower first (15 R451). In a block each access sets bit 3 of
EXCLUDED_INPUTS and counts in DIRECT_SHARED.
The model's choices here are log entry 52. -/
def Obligations.DirectLoadsOfGourd : Prop :=
  ∀ (s : State) (n t : Nat) (o : MemOp) (m m' : MemSt), Dispatched s n t → FieldsM o →
    let r := regsOf s t
    let a := addrM r o - 0x40000000
    let outside : Prop := (coreOf s.dev n).txn = none ∨ o.direct = true
    let e := directShared s.dev n
    let here (len : Nat) : Prop := 0x40000000 ≤ addrM r o ∧ a + len ≤ 0x2000000 ∧ a % len = 0 ∧
      winAllows s.dev n a len 0 = true ∧ (inUserTables a len ∨ inUserArea (asWindow s.dev n) a len) ∧ outside
    let clean : Prop := isPoisoned s.dev a = false ∧ (m = .ok ∨ m = .conflict)
    let bad : Prop := isPoisoned s.dev a = true ∨ m = .uncorrectable
    let bytes (len : Nat) : Nat := fromLE (mread s.dev.gourd.mem a len)
    let loads (i : Instr) (len : Nat) (P : Nat → Regs → Prop) : Prop := here len →
      (clean → ∃ u, Answers i s u ∧ OnlyRegs e u.dev n t ∧ LoadFrame r (regsOf u t) ∧
        StepsAd r (regsOf u t) o ∧ (regsOf u t).v = r.v ∧ P (bytes len) (regsOf u t)) ∧
      (isPoisoned s.dev a = false → m = .corrected → ∃ u, Answers i s u ∧ u.dev.gourd = s.dev.gourd ∧
        oGet u.dev (0x6000 + gBank a) 0x03 = min (topOf (0x6000 + gBank a) 0x03) (oGet s.dev (0x6000 + gBank a) 0x03 + 1) ∧
        LoadFrame r (regsOf u t) ∧ StepsAd r (regsOf u t) o ∧ P (bytes len) (regsOf u t)) ∧
      (bad → ∃ u, Answers i s u ∧ u.dev.gourd.mem = s.dev.gourd.mem ∧ NextPc r (regsOf u t) ∧
        StepsAd r (regsOf u t) o ∧ P 0 (regsOf u t) ∧ (regsOf u t).st = r.st ||| 0x100000#32 ∧
        isPoisoned u.dev a = true)
    let scalar (i : Instr) (len : Nat) (v : Nat → Word) : Prop := loads i len (fun x q => WritesG r q o.r (v x))
    ((coreOf s.dev n).txn = none → e = s.dev) ∧
    ((coreOf s.dev n).txn.isSome = true → e = { s.dev with obj := e.obj } ∧ oGet e 0x0110 0x09 = oGet s.dev 0x0110 0x09 ||| 8 ∧
      oGet e 0x5300 0x03 = min (topOf 0x5300 0x03) (oGet s.dev 0x5300 0x03 + 1) ∧
      ∀ i k j, okey i k j ≠ okey 0x0110 0x09 0 → okey i k j ≠ okey 0x5300 0x03 0 → oGet e i k j = oGet s.dev i k j) ∧
    scalar (.ldb n o m) 1 (fun x => (BitVec.ofNat 8 x).signExtend 32) ∧ scalar (.ldbu n o m) 1 (BitVec.ofNat 32) ∧
    scalar (.ldh n o m) 2 (fun x => (BitVec.ofNat 16 x).signExtend 32) ∧ scalar (.ldhu n o m) 2 (BitVec.ofNat 32) ∧
    scalar (.ldw n o m) 4 (BitVec.ofNat 32) ∧
    (o.r.getLsbD 0 = false → loads (.ldd n o m) 8 (fun x q => WritesPair r q o.r x)) ∧
    (let open8 (x : Nat) : Prop := winAllows s.dev n x 8 0 = true ∧ (inUserTables x 8 ∨ inUserArea (asWindow s.dev n) x 8)
     let lost (x : Nat) (k : MemSt) : Bool := isPoisoned s.dev x || decide (k = .uncorrectable)
     let half (x : Nat) (k : MemSt) : Nat := if lost x k then 0 else fromLE (mread s.dev.gourd.mem x 8)
     o.r.getLsbD 0 = false → 0x40000000 ≤ addrM r o → a + 16 ≤ 0x2000000 → a % 8 = 0 → open8 a → open8 (a + 8) → outside →
      ∃ u, Answers (.vld n o m m') s u ∧ u.dev.gourd.mem = s.dev.gourd.mem ∧ NextPc r (regsOf u t) ∧ StepsAd r (regsOf u t) o ∧
        (regsOf u t).g = r.g ∧ (∀ x, vR (regsOf u t) x = if x = o.r.extractLsb' 1 4 then
          BitVec.ofNat 128 (half a m + 2 ^ 64 * half (a + 8) m') else vR r x) ∧
        (regsOf u t).st = (if lost a m || lost (a + 8) m' then r.st ||| 0x100000#32 else r.st) ∧
        isPoisoned u.dev a = lost a m ∧ isPoisoned u.dev (a + 8) = lost (a + 8) m' ∧
        (lost a m = false → lost (a + 8) m' = false → m ≠ .corrected → m' ≠ .corrected → OnlyRegs (directShared e n) u.dev n t))

/-- 03 R69, R71, R72, 14 R424, 15 R451: in a block, a transactional store to Gourd through a window with WR leaves every byte of
Gourd as it stands: its bytes are staged, it takes one entry where its address has none yet, and the block reads them back
from there. A transactional load through a window with RD takes the bytes that the block has staged, and the others as they stood at the boundary
of its window; where a byte is not staged, a poisoned word or an uncorrectable error gives 0 and sets ST.UE. -/
def Obligations.TransactionalStoresAreStaged : Prop :=
  (∀ (s : State) (n t : Nat) (o : MemOp) (m m' : MemSt) (x : Txn), Dispatched s n t → FieldsM o → o.direct = false →
    let r := regsOf s t
    let a := addrM r o - 0x40000000
    (coreOf s.dev n).txn = some x → 0x40000000 ≤ addrM r o → (x.used < 256 ∨ a ∈ x.slots) → x.used ≤ 256 →
    let stages (i : Instr) (len v : Nat) : Prop := ∃ u y, Answers i s u ∧ (coreOf u.dev n).txn = some y ∧
      u.dev.gourd = s.dev.gourd ∧ y.used = (if a ∈ x.slots then x.used else x.used + 1) ∧ a ∈ y.slots ∧
      (∀ b, mfind y.writes b = if a ≤ b ∧ b < a + len then some (BitVec.ofNat 8 (v / 256 ^ (b - a))) else mfind x.writes b) ∧
      viewBytes u.dev y a len = toLE len v ∧ (coreOf u.dev n).mem = (coreOf s.dev n).mem ∧
      LoadFrame r (regsOf u t) ∧ StepsAd r (regsOf u t) o ∧ (regsOf u t).g = r.g ∧ (regsOf u t).v = r.v
    let here (len : Nat) : Prop := a + len ≤ 0x2000000 ∧ storeOk s.dev n a len = true
    let g := (gR r o.r).toNat
    (here 1 → stages (.stb n o m) 1 g) ∧ (here 2 → stages (.sth n o m) 2 g) ∧ (here 4 → stages (.stw n o m) 4 g) ∧
    (o.r.getLsbD 0 = false → here 8 → stages (.std n o m) 8 (if o.r = 0 then 0 else g + 2 ^ 32 * (gR r (o.r + 1)).toNat)) ∧
    (o.r.getLsbD 0 = false → a + 16 ≤ 0x2000000 → storeOk s.dev n a 8 = true → storeOk s.dev n (a + 8) 8 = true →
      stages (.vst n o m m') 16 (vR r (o.r.extractLsb' 1 4)).toNat)) ∧
  ∀ (s : State) (n t : Nat) (o : MemOp) (m m' : MemSt) (x : Txn), Dispatched s n t → FieldsM o → o.direct = false →
    let r := regsOf s t
    let a := addrM r o - 0x40000000
    (coreOf s.dev n).txn = some x → 0x40000000 ≤ addrM r o →
    let view (b len : Nat) : Nat := fromLE ((rangeFrom b len).map (fun k =>
      (mfind x.writes k).getD (mget 0#8 (if s.dev.media.block ≤ x.window then s.dev.gourd.snap else s.dev.gourd.snapPrev) k)))
    let here (b len : Nat) : Prop := b + len ≤ 0x2000000 ∧ b % len = 0 ∧ winAllows s.dev n b len 0 = true ∧ inBus s.dev b len = false ∧
      (inUserTables b len ∨ inUserArea (asWindow s.dev n) b len)
    let staged (b len : Nat) : Prop := ∀ k, b ≤ k → k < b + len → (mfind x.writes k).isSome = true
    let sound (b len : Nat) (m : MemSt) : Prop := staged b len ∨ (isPoisoned s.dev b = false ∧ (m = .ok ∨ m = .conflict))
    let loads (i : Instr) (len : Nat) (P : Nat → Regs → Prop) : Prop := here a len →
      (sound a len m → ∃ u, Answers i s u ∧ OnlyRegs s.dev u.dev n t ∧ LoadFrame r (regsOf u t) ∧ StepsAd r (regsOf u t) o ∧
        (regsOf u t).v = r.v ∧ P (view a len) (regsOf u t)) ∧
      (¬ staged a len → isPoisoned s.dev a = true ∨ m = .uncorrectable → ∃ u, Answers i s u ∧ u.dev.gourd.mem = s.dev.gourd.mem ∧
        NextPc r (regsOf u t) ∧ StepsAd r (regsOf u t) o ∧ P 0 (regsOf u t) ∧ (regsOf u t).st = r.st ||| 0x100000#32)
    let scalar (i : Instr) (len : Nat) (v : Nat → Word) : Prop := loads i len (fun x q => WritesG r q o.r (v x))
    scalar (.ldb n o m) 1 (fun x => (BitVec.ofNat 8 x).signExtend 32) ∧ scalar (.ldbu n o m) 1 (BitVec.ofNat 32) ∧
    scalar (.ldh n o m) 2 (fun x => (BitVec.ofNat 16 x).signExtend 32) ∧ scalar (.ldhu n o m) 2 (BitVec.ofNat 32) ∧
    scalar (.ldw n o m) 4 (BitVec.ofNat 32) ∧
    (o.r.getLsbD 0 = false → loads (.ldd n o m) 8 (fun x q => WritesPair r q o.r x)) ∧
    (o.r.getLsbD 0 = false → here a 8 → here (a + 8) 8 → sound a 8 m → sound (a + 8) 8 m' → ∃ u, Answers (.vld n o m m') s u ∧
      OnlyRegs s.dev u.dev n t ∧ LoadFrame r (regsOf u t) ∧ StepsAd r (regsOf u t) o ∧ (regsOf u t).g = r.g ∧
      ∀ y, vR (regsOf u t) y = if y = o.r.extractLsb' 1 4 then BitVec.ofNat 128 (view a 16) else vR r y)

/-- 13 R374, R377, 03 R88, 14 R423-R425: a store of a thread that runs no block, or a D form in a block, through a window with WR, replaces its bytes of
Gourd and no other byte; one that meets a spine-port conflict from another quadrant is dropped, counted in CONFLICTS, and
leaves all of Gourd alone; one of fewer than 8 bytes to a poisoned word is not performed, and one of all 8 clears the poison.
A vector store makes two such accesses of 8 bytes, the lower first (15 R451). In a block each access sets bit 3 of EXCLUDED_INPUTS and counts
in DIRECT_SHARED. The model's choices here are log entries 1, 52. -/
def Obligations.DirectStoresToGourd : Prop :=
  ∀ (s : State) (n t : Nat) (o : MemOp) (m m' : MemSt), Dispatched s n t → FieldsM o → n < 20 →
    let r := regsOf s t
    let a := addrM r o - 0x40000000
    let outside : Prop := (coreOf s.dev n).txn = none ∨ o.direct = true
    let e := directShared s.dev n
    let here (len : Nat) : Prop := 0x40000000 ≤ addrM r o ∧ a + len ≤ 0x2000000 ∧ storeOk s.dev n a len = true ∧ outside
    let stores (i : Instr) (len v : Nat) : Prop := here len →
      (isPoisoned s.dev a = false → ¬ (m = .conflict ∧ gQuad a ≠ n / 5) → ∃ u, Answers i s u ∧
        (∀ b, mget 0#8 u.dev.gourd.mem b =
          if a ≤ b ∧ b < a + len then BitVec.ofNat 8 (v / 256 ^ (b - a)) else mget 0#8 s.dev.gourd.mem b) ∧
        OnlyRegs { e with gourd := { e.gourd with mem := u.dev.gourd.mem } } u.dev n t ∧
        LoadFrame r (regsOf u t) ∧ StepsAd r (regsOf u t) o ∧ (regsOf u t).g = r.g ∧ (regsOf u t).v = r.v) ∧
      (isPoisoned s.dev a = true → ¬ (m = .conflict ∧ gQuad a ≠ n / 5) → ∃ u, Answers i s u ∧
        (len < 8 → u.dev.gourd = s.dev.gourd) ∧ (len = 8 → isPoisoned u.dev a = false ∧
          mread u.dev.gourd.mem a 8 = toLE 8 v) ∧ LoadFrame r (regsOf u t) ∧ StepsAd r (regsOf u t) o) ∧
      (m = .conflict → gQuad a ≠ n / 5 → ∃ u, Answers i s u ∧ u.dev.gourd = s.dev.gourd ∧ (thr u.dev t).conf = true ∧
        oGet u.dev (0x5000 + 0x20 * n) 0x05 = min (topOf (0x5000 + 0x20 * n) 0x05) (oGet s.dev (0x5000 + 0x20 * n) 0x05 + 1) ∧
        LoadFrame r (regsOf u t) ∧ StepsAd r (regsOf u t) o)
    let g := (gR r o.r).toNat
    ((coreOf s.dev n).txn = none → e = s.dev) ∧
    ((coreOf s.dev n).txn.isSome = true → e = { s.dev with obj := e.obj } ∧ oGet e 0x0110 0x09 = oGet s.dev 0x0110 0x09 ||| 8 ∧
      oGet e 0x5300 0x03 = min (topOf 0x5300 0x03) (oGet s.dev 0x5300 0x03 + 1) ∧
      ∀ i k j, okey i k j ≠ okey 0x0110 0x09 0 → okey i k j ≠ okey 0x5300 0x03 0 → oGet e i k j = oGet s.dev i k j) ∧
    stores (.stb n o m) 1 g ∧ stores (.sth n o m) 2 g ∧ stores (.stw n o m) 4 g ∧
    (o.r.getLsbD 0 = false → stores (.std n o m) 8 (if o.r = 0 then 0 else g + 2 ^ 32 * (gR r (o.r + 1)).toNat)) ∧
    (let drops (x : Nat) (k : MemSt) : Bool := decide (k = .conflict) && gQuad x != n / 5
     let v := (vR r (o.r.extractLsb' 1 4)).toNat
     o.r.getLsbD 0 = false → 0x40000000 ≤ addrM r o → a + 16 ≤ 0x2000000 → storeOk s.dev n a 8 = true → storeOk s.dev n (a + 8) 8 = true →
      outside → ∃ u, Answers (.vst n o m m') s u ∧
        (∀ b, mget 0#8 u.dev.gourd.mem b =
          if (a ≤ b ∧ b < a + 8 ∧ drops a m = false) ∨ (a + 8 ≤ b ∧ b < a + 16 ∧ drops (a + 8) m' = false)
          then BitVec.ofNat 8 (v / 256 ^ (b - a)) else mget 0#8 s.dev.gourd.mem b) ∧
        isPoisoned u.dev a = (isPoisoned s.dev a && drops a m) ∧ isPoisoned u.dev (a + 8) = (isPoisoned s.dev (a + 8) && drops (a + 8) m') ∧
        (thr u.dev t).conf = ((thr s.dev t).conf || drops a m || drops (a + 8) m') ∧
        oGet u.dev (0x5000 + 0x20 * n) 0x05 =
          min (topOf (0x5000 + 0x20 * n) 0x05) (oGet s.dev (0x5000 + 0x20 * n) 0x05 + b2n (drops a m) + b2n (drops (a + 8) m')) ∧
        (drops a m = false → drops (a + 8) m' = false → isPoisoned s.dev a = false → isPoisoned s.dev (a + 8) = false →
          OnlyRegs { directShared e n with gourd := { e.gourd with mem := u.dev.gourd.mem } } u.dev n t) ∧
        LoadFrame r (regsOf u t) ∧ StepsAd r (regsOf u t) o ∧ (regsOf u t).g = r.g ∧ (regsOf u t).v = r.v)

/-- 14 R420, R422-R424, R426, 04 R143, 15 R451, R453, R455: an access outside the address space, one that is not aligned, or one of Gourd that no window of the core
allows, is refused under cause 5: a load returns 0, a store stores nothing in any memory, AD_a is updated all the same, the core freezes, and
ACCESS_REFUSALS, LAST_REFUSED and its kind name the access. A vector access of Gourd makes two accesses of 8 bytes, each refused by itself. So are a store into the constant area, an atomic on local
memory, which returns 0, and CADD outside a block.
The model's choices here are log entry 59. -/
def Obligations.RefusedAccesses : Prop :=
  (∀ (s : State) (n t : Nat) (o : MemOp) (m m' : MemSt), Dispatched s n t → FieldsM o → n < 20 →
    let r := regsOf s t
    let a := addrM r o
    let wrongAt (x len right : Nat) : Prop := x % len ≠ 0 ∨ (0x20000 < x + len ∧ (x < 0x40000000 ∨ 0x42000000 < x + len)) ∨
      (0x40000000 ≤ x ∧ winAllows s.dev n (x - 0x40000000) len right = false)
    let wrong (len right : Nat) : Prop := wrongAt a len right
    let refusedAt (u : State) (x k : Nat) : Prop := coreFrozen u.dev n = true ∧ u.dev.gourd = s.dev.gourd ∧
      (∀ k, (coreOf u.dev k).mem = (coreOf s.dev k).mem) ∧
      oGet u.dev 0x5300 0x02 = min (topOf 0x5300 0x02) (oGet s.dev 0x5300 0x02 + k) ∧
      oGet u.dev (0x5000 + 0x20 * n) 0x07 = x % 2 ^ 32 ∧ oGet u.dev (0x5000 + 0x20 * n) 0x09 = 0 ∧
      (coreFrozen s.dev n = false → oGet u.dev 0x1020 (n + 1) = 5) ∧ LoadFrame r (regsOf u t) ∧ StepsAd r (regsOf u t) o
    let refused (u : State) : Prop := refusedAt u a 1
    let loads (i : Instr) : Prop := ∃ u, Answers i s u ∧ refused u ∧ WritesG r (regsOf u t) o.r 0
    let stores (i : Instr) : Prop := ∃ u, Answers i s u ∧ refused u ∧ (regsOf u t).g = r.g
    let vreg := o.r.extractLsb' 1 4
    let setsV (q : Regs) (v : BitVec 128) : Prop := ∀ x, vR q x = if x = vreg then v else vR r x
    let vecAt (x : Nat) : Prop := 0x40000000 ≤ x ∧ x < 0x42000000
    let allowed (x right : Nat) : Prop := ¬ wrongAt x 8 right ∧ (inUserTables (x - 0x40000000) 8 ∨ inUserArea s.dev (x - 0x40000000) 8)
    (a < constKept s.dev n → a + 16 ≤ 0x20000 → stores (.stb n o m) ∧ (a % 2 = 0 → stores (.sth n o m)) ∧ (a % 4 = 0 → stores (.stw n o m)) ∧
      (o.r.getLsbD 0 = false → (a % 8 = 0 → stores (.std n o m)) ∧ (a % 16 = 0 → stores (.vst n o m m')))) ∧
    (wrong 1 0 → loads (.ldb n o m) ∧ loads (.ldbu n o m)) ∧ (wrong 1 1 → stores (.stb n o m)) ∧
    (wrong 2 0 → loads (.ldh n o m) ∧ loads (.ldhu n o m)) ∧ (wrong 2 1 → stores (.sth n o m)) ∧
    (wrong 4 0 → loads (.ldw n o m)) ∧ (wrong 4 1 → stores (.stw n o m)) ∧
    (o.r.getLsbD 0 = false → wrong 8 0 → ∃ u, Answers (.ldd n o m) s u ∧ refused u ∧ WritesPair r (regsOf u t) o.r 0) ∧
    (o.r.getLsbD 0 = false → wrong 8 1 → stores (.std n o m)) ∧
    (o.r.getLsbD 0 = false → ¬ vecAt a → a % 16 ≠ 0 ∨ 0x20000 < a + 16 → stores (.vst n o m m') ∧
      ∃ u, Answers (.vld n o m m') s u ∧ refused u ∧ (regsOf u t).g = r.g ∧ setsV (regsOf u t) 0) ∧
    (o.r.getLsbD 0 = false → vecAt a → wrongAt a 8 0 → wrongAt (a + 8) 8 0 → ∃ u, Answers (.vld n o m m') s u ∧ refusedAt u (a + 8) 2 ∧
      (regsOf u t).g = r.g ∧ setsV (regsOf u t) 0) ∧
    (o.r.getLsbD 0 = false → vecAt a → wrongAt a 8 1 → wrongAt (a + 8) 8 1 → ∃ u, Answers (.vst n o m m') s u ∧ refusedAt u (a + 8) 2 ∧
      (regsOf u t).g = r.g) ∧
    (o.r.getLsbD 0 = false → vecAt a → (coreOf s.dev n).txn = none → m = .ok → m' = .ok →
      isPoisoned s.dev (a - 0x40000000) = false → isPoisoned s.dev (a + 8 - 0x40000000) = false →
      let word (x : Nat) : Nat := fromLE (mread s.dev.gourd.mem (x - 0x40000000) 8)
      (wrongAt a 8 0 → allowed (a + 8) 0 → ∃ u, Answers (.vld n o m m') s u ∧ refusedAt u a 1 ∧
        setsV (regsOf u t) (BitVec.ofNat 128 (2 ^ 64 * word (a + 8)))) ∧
      (allowed a 0 → wrongAt (a + 8) 8 0 → ∃ u, Answers (.vld n o m m') s u ∧ refusedAt u (a + 8) 1 ∧
        setsV (regsOf u t) (BitVec.ofNat 128 (word a))))) ∧
  ∀ (s : State) (n t : Nat) (o : AtomOp) (m : MemSt), Dispatched s n t → n < 20 →
    let r := regsOf s t
    let a := (aR r 0 o.a).toNat
    let refused (i : Instr) (P : Regs → Prop) : Prop := ∃ u, Answers i s u ∧ coreFrozen u.dev n = true ∧ u.dev.gourd = s.dev.gourd ∧
      (∀ k, (coreOf u.dev k).mem = (coreOf s.dev k).mem) ∧ (coreOf u.dev n).txn = (coreOf s.dev n).txn ∧
      oGet u.dev 0x5300 0x02 = min (topOf 0x5300 0x02) (oGet s.dev 0x5300 0x02 + 1) ∧
      oGet u.dev (0x5000 + 0x20 * n) 0x07 = a ∧ oGet u.dev (0x5000 + 0x20 * n) 0x09 = 0 ∧
      (coreFrozen s.dev n = false → oGet u.dev 0x1020 (n + 1) = 5) ∧ LoadFrame r (regsOf u t) ∧
      (∀ x, aR (regsOf u t) 0 x = if x = o.a ∧ o.upd = true then stepped r o.a (aR r 3 o.a).toInt else aR r 0 x) ∧ P (regsOf u t)
    let wrong (len : Nat) : Prop := a + len ≤ 0x20000 ∨ a % len ≠ 0 ∨ a < 0x40000000 ∨ 0x42000000 < a + len ∨
      winAllows s.dev n (a - 0x40000000) len 2 = false
    let even : Prop := o.d.getLsbD 0 = false ∧ o.s.getLsbD 0 = false
    let one (i : Instr) : Prop := refused i (fun q => WritesG r q o.d 0)
    let two (i : Instr) : Prop := refused i (fun q => WritesPair r q o.d 0)
    (wrong 4 → one (.atomicAdd n o m) ∧ one (.swap n o m) ∧ (o.s.toNat ≤ 30 → one (.cas n o m))) ∧
    (even → wrong 8 → two (.atomicAddD64 n o m) ∧ two (.swapD64 n o m) ∧ (o.s.toNat ≤ 28 → two (.casD64 n o m))) ∧
    ((coreOf s.dev n).txn = none → ∀ rs, refused (.cadd n rs o.a o.upd) (fun q => q.g = r.g))

/-- 15 R453, R454, 14 R424, 03 R88, 13 R379: an atomic of a thread that runs no block, and in a block SWAP, CAS and a D form of ADD, aligned and through a window with AT, returns the old
value and stores the new one (the sum; Gs; G(s+1) where the old value equals Gs, else the old value) at AD_a; every other byte of
Gourd is unchanged, and AD_a is updated by MD_a in mode 1. One that meets a poisoned word or an uncorrectable error returns 0,
sets ST.UE and stores nothing, but for a 64-bit swap, which is performed and clears the poison. In a block it sets bit 3 of EXCLUDED_INPUTS and
counts in DIRECT_SHARED, but for an ADD whose result goes to G0.
The model's choices here are log entry 52. -/
def Obligations.DirectAtomics : Prop :=
  ∀ (s : State) (n t : Nat) (o : AtomOp), Dispatched s n t →
    let r := regsOf s t
    let a := (aR r 0 o.a).toNat - 0x40000000
    let pair (x : BitVec 5) : Nat := if x = 0 then 0 else (gR r x).toNat + 2 ^ 32 * (gR r (x + 1)).toNat
    let old (len : Nat) : Nat := fromLE (mread s.dev.gourd.mem a len)
    let here (len : Nat) : Prop := 0x40000000 ≤ (aR r 0 o.a).toNat ∧ a + len ≤ 0x2000000 ∧ a % len = 0 ∧
      winAllows s.dev n a len 2 = true ∧ (inUserTables a len ∨ inUserArea (asWindow s.dev n) a len)
    let outside : Prop := (coreOf s.dev n).txn = none ∨ o.direct = true
    let e := directShared s.dev n
    let swaps (i : MemSt → Instr) (e : Dev) (len new : Nat) (P : Nat → Regs → Prop) : Prop := here len →
      (isPoisoned s.dev a = false → ∃ u, Answers (i .ok) s u ∧
      (∀ b, mget 0#8 u.dev.gourd.mem b =
        if a ≤ b ∧ b < a + len then BitVec.ofNat 8 (new / 256 ^ (b - a)) else mget 0#8 s.dev.gourd.mem b) ∧
      OnlyRegs { e with gourd := { e.gourd with mem := u.dev.gourd.mem } } u.dev n t ∧
      LoadFrame r (regsOf u t) ∧ (regsOf u t).v = r.v ∧
      (∀ x, aR (regsOf u t) 0 x = if x = o.a ∧ o.upd = true then stepped r o.a (aR r 3 o.a).toInt else aR r 0 x) ∧
      P (old len) (regsOf u t))
    let fails (i : MemSt → Instr) (len : Nat) (P : Nat → Regs → Prop) : Prop := here len → ∀ m,
      isPoisoned s.dev a = true ∨ m = .uncorrectable → ∃ u, Answers (i m) s u ∧ u.dev.gourd.mem = s.dev.gourd.mem ∧
        (regsOf u t).st = r.st ||| 0x100000#32 ∧ P 0 (regsOf u t)
    let both (i : MemSt → Instr) (e : Dev) (len new : Nat) (P : Nat → Regs → Prop) : Prop := swaps i e len new P ∧ fails i len P
    let even : Prop := o.d.getLsbD 0 = false ∧ o.s.getLsbD 0 = false
    let one (x : Nat) (q : Regs) : Prop := WritesG r q o.d (BitVec.ofNat 32 x)
    let two (x : Nat) (q : Regs) : Prop := WritesPair r q o.d x
    let sum : Dev := if o.d = 0 then s.dev else e
    ((coreOf s.dev n).txn = none → e = s.dev) ∧
    ((coreOf s.dev n).txn.isSome = true → e = { s.dev with obj := e.obj } ∧ oGet e 0x0110 0x09 = oGet s.dev 0x0110 0x09 ||| 8 ∧
      oGet e 0x5300 0x03 = min (topOf 0x5300 0x03) (oGet s.dev 0x5300 0x03 + 1) ∧
      ∀ i k j, okey i k j ≠ okey 0x0110 0x09 0 → okey i k j ≠ okey 0x5300 0x03 0 → oGet e i k j = oGet s.dev i k j) ∧
    (outside → both (.atomicAdd n o) sum 4 (old 4 + (gR r o.s).toNat) one) ∧ both (.swap n o) e 4 (gR r o.s).toNat one ∧
    (o.s.toNat ≤ 30 → both (.cas n o) e 4 (if old 4 = (gR r o.s).toNat then (gR r (o.s + 1)).toNat else old 4) one) ∧
    (even → outside → both (.atomicAddD64 n o) sum 8 (old 8 + pair o.s) two) ∧
    (even → swaps (.swapD64 n o) e 8 (pair o.s) two ∧ (here 8 → ∀ m, isPoisoned s.dev a = true ∨ m = .uncorrectable →
      ∃ u, Answers (.swapD64 n o m) s u ∧ isPoisoned u.dev a = false ∧ mread u.dev.gourd.mem a 8 = toLE 8 (pair o.s) ∧
        (regsOf u t).st = r.st ||| 0x100000#32 ∧ two 0 (regsOf u t))) ∧
    (even → o.s.toNat ≤ 28 → both (.casD64 n o) e 8 (if old 8 = pair o.s then pair (o.s + 2) else old 8) two)

/-- 15 R454, R455, 03 R75, R78, R80: in a block, ADD and ADD.D64 without D, aligned and through a window with AT, take one staging entry for a sum
at the seal's boundary: Gourd is unchanged, and Gd or pair Gd receives 0. CADD from an aligned local source into a whole buffer of the block's parity, through a
window with CA, stages B 64-bit words for the channel and takes B entries; no memory and no bus word changes until the seal. -/
def Obligations.TransactionalAddsAreStaged : Prop :=
  (∀ (s : State) (n t : Nat) (o : AtomOp) (m : MemSt) (x : Txn), Dispatched s n t → o.direct = false →
    let r := regsOf s t
    let a := (aR r 0 o.a).toNat - 0x40000000
    let here (len : Nat) : Prop := 0x40000000 ≤ (aR r 0 o.a).toNat ∧ a + len ≤ 0x2000000 ∧ a % len = 0 ∧
      winAllows s.dev n a len 2 = true ∧ (inUserTables a len ∨ inUserArea (asWindow s.dev n) a len)
    (coreOf s.dev n).txn = some x → x.used < 256 →
    let stages (i : Instr) (len v : Nat) (P : Regs → Prop) : Prop := here len → ∃ u y, Answers i s u ∧
      (coreOf u.dev n).txn = some y ∧ y.used = x.used + 1 ∧ y.adds = x.adds ++ [(a, len, v)] ∧ u.dev.gourd = s.dev.gourd ∧
      LoadFrame r (regsOf u t) ∧ P (regsOf u t)
    stages (.atomicAdd n o m) 4 (gR r o.s).toNat (fun q => WritesG r q o.d 0) ∧
    (o.d.getLsbD 0 = false → o.s.getLsbD 0 = false → stages (.atomicAddD64 n o m) 8
      (if o.s = 0 then 0 else (gR r o.s).toNat + 2 ^ 32 * (gR r (o.s + 1)).toNat) (fun q => WritesPair r q o.d 0))) ∧
  ∀ (s : State) (n t : Nat) (rs : BitVec 5) (a : BitVec 3) (upd : Bool) (x : Txn), Dispatched s n t →
    let r := regsOf s t
    let src := (gR r rs).toNat
    let b := blockLen s.dev
    let g := (aR r 0 a).toNat - 0x40000000
    let ch := (g - 0xD20000) / 8 / b / 2
    (coreOf s.dev n).txn = some x → 0x40000000 ≤ (aR r 0 a).toNat → g + 8 * b ≤ 0x2000000 → 0 < b →
    src % 8 = 0 → src + 8 * b ≤ 0x20000 → inBus s.dev g (8 * b) = true → g % 8 = 0 → (g - 0xD20000) / 8 % b = 0 →
    (g - 0xD20000) / 8 / b % 2 = (x.window + 2) % 2 → winAllows s.dev n g (8 * b) 3 = true → x.used + b ≤ 256 →
    ∃ u y, Answers (.cadd n rs a upd) s u ∧ (coreOf u.dev n).txn = some y ∧ y.used = x.used + b ∧
      (∃ v, y.cadds = x.cadds ++ [(ch, v)] ∧ v.length = b ∧ ∀ j, j < b → v[j]? =
        some (sgn 64 (fromLE (mread (coreOf s.dev n).mem (src + 8 * j) 8)))) ∧
      u.dev.gourd = s.dev.gourd ∧ (coreOf u.dev n).mem = (coreOf s.dev n).mem ∧ LoadFrame r (regsOf u t) ∧
      (regsOf u t).g = r.g ∧
      ∀ x, aR (regsOf u t) 0 x = if x = a ∧ upd = true then stepped r a (aR r 3 a).toInt else aR r 0 x

/-- 15 R456, 14 R414: outside a block, LDP reads and STP writes one word of a program bank, at (Gs + word) mod 8,192; in a block both
are refused under cause 5 and LDP returns 0. The model's choices here are log entry 6. -/
def Obligations.ProgramMemoryAccess : Prop :=
  ∀ (s : State) (n t : Nat) (g rs : BitVec 5) (bank : Bool) (word : BitVec 13), Dispatched s n t →
    let r := regsOf s t
    let a := ((gR r rs).toNat + word.toNat) % 8192
    let bankOf (d : Dev) (b : Bool) (k : Nat) : Word := mget 0 (if b then (coreOf d n).progB else (coreOf d n).progA) k
    ((coreOf s.dev n).txn = none →
      (∃ u, Answers (.ldp n g bank rs word) s u ∧ OnlyRegs s.dev u.dev n t ∧ ScalarFrame r (regsOf u t) ∧
        (regsOf u t).st = r.st ∧ WritesG r (regsOf u t) g (bankOf s.dev bank a)) ∧
      (∃ u, Answers (.stp n g bank rs word) s u ∧ NextPc r (regsOf u t) ∧
        { regsOf u t with pc := r.pc, rcnt := r.rcnt } = r ∧
        (∀ b k, bankOf u.dev b k = if b = bank ∧ k = a then gR r g else bankOf s.dev b k) ∧
        u.dev.gourd = s.dev.gourd ∧ u.dev.obj = s.dev.obj ∧ (coreOf u.dev n).mem = (coreOf s.dev n).mem ∧
        ∀ k, k ≠ n → coreOf u.dev k = coreOf s.dev k)) ∧
    ((coreOf s.dev n).txn.isSome = true →
      (∃ u, Answers (.ldp n g bank rs word) s u ∧ coreFrozen u.dev n = true ∧ WritesG r (regsOf u t) g 0) ∧
      (∃ u, Answers (.stp n g bank rs word) s u ∧ coreFrozen u.dev n = true ∧
        ∀ b k, bankOf u.dev b k = bankOf s.dev b k))

/-! ### Kernel calls (14 R429-R431, 16 R468-R494, 11 R329) -/

/-- 14 R429, R424: BLOCK, QCOUNT and an undefined KCALL write their results to G1 (BLOCK the high half to G2) and change no
other register; QCOUNT of a queue that the version of the dispatch does not grant is refused under cause 5 and returns 0.
The model's choices here are log entry 39. -/
def Obligations.KernelCallsThatOnlyAnswer : Prop :=
  ∀ (s : State) (n t : Nat) (k : BitVec 8), Dispatched s n t →
    let r := regsOf s t
    let q := (gR r 2).toNat
    let six : Nat := match (coreOf s.dev n).txn with
      | some x => (x.window + 2) * blockLen s.dev
      | none => sixNow s.dev
    let granted : Prop := queueGranted (asWindow s.dev n) t q = true
    (10 ≤ k.toNat → ∃ u, Answers (.kUndefined n k) s u ∧ OnlyRegs s.dev u.dev n t ∧ ScalarFrame r (regsOf u t) ∧
      (regsOf u t).st = r.st ∧ WritesG r (regsOf u t) 1 6) ∧
    (∃ u, Answers (.kBlock n) s u ∧ OnlyRegs s.dev u.dev n t ∧ ScalarFrame r (regsOf u t) ∧ (regsOf u t).st = r.st ∧
      ∀ x, gR (regsOf u t) x = if x = 1 then BitVec.ofNat 32 six else if x = 2 then BitVec.ofNat 32 (six / 2 ^ 32) else gR r x) ∧
    (granted → ∃ u, Answers (.kQcount n) s u ∧ OnlyRegs { s.dev with obj := u.dev.obj } u.dev n t ∧
      ((coreOf s.dev n).txn = none → u.dev.obj = s.dev.obj) ∧
      ((coreOf s.dev n).txn.isSome = true → oGet u.dev 0x0110 0x09 = oGet s.dev 0x0110 0x09 ||| 8 ∧
        oGet u.dev 0x5300 0x03 = min (topOf 0x5300 0x03) (oGet s.dev 0x5300 0x03 + 1)) ∧
      ScalarFrame r (regsOf u t) ∧ (regsOf u t).st = r.st ∧
      WritesG r (regsOf u t) 1 (BitVec.ofNat 32 (queueOf s.dev q).items.length)) ∧
    (¬ granted → ∃ u, Answers (.kQcount n) s u ∧ coreFrozen u.dev n = true ∧ WritesG r (regsOf u t) 1 0 ∧
      u.dev.stalk.queues = s.dev.stalk.queues)

/-- 16 R470, R472: a SIGNAL outside a block of a granted counter that is no bus-channel counter takes 1 from a counter above 0,
which at 0 is released (CNT_ZEROS counts, and CNT_MODE 1 reloads it), and counts CNT_EXTRA on a counter at 0; G1 is 0. Any
other SIGNAL is refused under cause 5 and leaves every counter alone. The model's choices here are log entry 39. -/
def Obligations.SignalCountsDown : Prop :=
  ∀ (s : State) (n t : Nat), Dispatched s n t → (coreOf s.dev n).txn = none →
    let c := (gR (regsOf s t) 2).toNat
    let v := cnt s.dev c
    let granted : Prop := tf s.dev 0x08 t ≤ c ∧ c < tf s.dev 0x08 t + tf s.dev 0x09 t ∧ 128 ≤ c
    let mode1 : Prop := rs s.dev 0x5800 0x12 c = 1
    (granted → c < 131072 → ∃ u, Answers (.kSignal n) s u ∧ gR (regsOf u t) 1 = 0 ∧
      (v = 0 → cnt u.dev c = 0 ∧
        oGet u.dev 0x5800 0x15 c = min (topOf 0x5800 0x15) (oGet s.dev 0x5800 0x15 c + 1)) ∧
      (1 < v → cnt u.dev c = v - 1) ∧
      (v = 1 → (mode1 → cnt u.dev c = rs s.dev 0x5800 0x11 c) ∧ (¬ mode1 → cnt u.dev c = 0) ∧
        oGet u.dev 0x5800 0x14 c = min (topOf 0x5800 0x14) (oGet s.dev 0x5800 0x14 c + 1)) ∧
      ∀ x, x ≠ c → cnt u.dev x = cnt s.dev x) ∧
    (¬ granted → ∃ u, Answers (.kSignal n) s u ∧ coreFrozen u.dev n = true ∧ gR (regsOf u t) 1 = 0 ∧
      u.dev.stalk.counters = s.dev.stalk.counters)

/-- 16 R484-R486, R491, R493, R494: outside a block, QPUT puts V0 at the tail of a granted queue that has room and returns the count, and
on a full one the thread stalls and the waits count. QGET of a granted queue takes its head item into V0,
or LAST from an empty queue with ST.UNDR and UNDERRUNS, and returns the items left; a head item that an unsealed transaction
has read stays in the queue. Where the queue is that of a flow, the flow must be free or the thread's, and the thread then holds it with the item in
service; a flow that another thread holds stalls the thread and counts CONTENDED, and a thread that holds another flow is refused. A queue that is
not granted is refused.
The model's choices here are log entries 38, 39. -/
def Obligations.QueueCallsOutsideBlocks : Prop :=
  ∀ (s : State) (n t : Nat), Dispatched s n t → (coreOf s.dev n).txn = none →
    let r := regsOf s t
    let q := (gR r 2).toNat
    let items := (queueOf s.dev q).items
    let granted : Prop := queueGranted s.dev t q = true
    (granted → items.length < qDepth s.dev q → ∃ u, Answers (.kQput n) s u ∧
      queueOf u.dev q = { queueOf s.dev q with items := items ++ [vR r 0] } ∧
      (∀ x, x ≠ q → queueOf u.dev x = queueOf s.dev x) ∧ ScalarFrame r (regsOf u t) ∧ (regsOf u t).st = r.st ∧
      WritesG r (regsOf u t) 1 (BitVec.ofNat 32 (items.length + 1))) ∧
    (granted → qDepth s.dev q ≤ items.length → ∃ u, Answers (.kQput n) s u ∧ (thr u.dev t).st = .stalled ∧
      (queueOf u.dev q).items = items ∧ (queueOf u.dev q).waiters = (queueOf s.dev q).waiters ++ [t] ∧
      oGet u.dev 0x5A01 0x07 q = min (topOf 0x5A01 0x07) (oGet s.dev 0x5A01 0x07 q + 1) ∧
      oGet u.dev 0x5800 0x23 = min (topOf 0x5800 0x23) (oGet s.dev 0x5800 0x23 + 1)) ∧
    let proceeds : Prop := flowFor s.dev q = none ∨ ∃ f, flowFor s.dev q = some f ∧
      ((flowOf s.dev f).holder = some t ∨ ((flowOf s.dev f).holder = none ∧ (thr s.dev t).flow = none))
    (granted → proceeds → ∃ u, Answers (.kQget n .ok) s u ∧ NextPc r (regsOf u t) ∧
      (∀ f, flowFor s.dev q = some f → flowOf u.dev f = { flowOf s.dev f with holder := some t, inService := decide (items ≠ []) } ∧
        (thr u.dev t).flow = some f) ∧
      (∀ x y, items = x :: y → vR (regsOf u t) 0 = x ∧ (queueOf u.dev q).last = x ∧
        (queueOf u.dev q).items = (if heldItems s.dev q = 0 then y else items) ∧
        gR (regsOf u t) 1 = BitVec.ofNat 32 (queueOf u.dev q).items.length ∧ (regsOf u t).st.getLsbD 22 = false) ∧
      (items = [] → vR (regsOf u t) 0 = (queueOf s.dev q).last ∧ queueOf u.dev q = queueOf s.dev q ∧
        gR (regsOf u t) 1 = 0 ∧ (regsOf u t).st.getLsbD 22 = true ∧
        oGet u.dev 0x5A01 0x06 q = min (topOf 0x5A01 0x06) (oGet s.dev 0x5A01 0x06 q + 1)) ∧
      (∀ x, x ≠ q → queueOf u.dev x = queueOf s.dev x) ∧
      (∀ x, x ≠ 1 → gR (regsOf u t) x = gR r x) ∧ ∀ x, x ≠ 0 → vR (regsOf u t) x = vR r x) ∧
    (∀ f h, granted → flowFor s.dev q = some f → (flowOf s.dev f).holder = some h → h ≠ t →
      ((thr s.dev t).flow = none → ∃ u, Answers (.kQget n .ok) s u ∧ (thr u.dev t).st = .stalled ∧ (thr u.dev t).stall = some (.flow q .ok) ∧
        regsOf u t = r ∧ flowOf u.dev f = { flowOf s.dev f with stalled := (flowOf s.dev f).stalled ++ [t] } ∧
        oGet u.dev (0x5C00 + f) 0x04 = min (topOf (0x5C00 + f) 0x04) (oGet s.dev (0x5C00 + f) 0x04 + 1) ∧
        u.dev.stalk.queues = s.dev.stalk.queues)) ∧
    (∀ f, granted → flowFor s.dev q = some f → (flowOf s.dev f).holder ≠ some t → (thr s.dev t).flow.isSome = true →
      ∃ u, Answers (.kQget n .ok) s u ∧ coreFrozen u.dev n = true ∧ u.dev.stalk.queues = s.dev.stalk.queues ∧
        u.dev.stalk.flows = s.dev.stalk.flows ∧ gR (regsOf u t) 1 = 0) ∧
    (¬ granted → ∀ i ∈ [Instr.kQput n, .kQget n .ok], ∃ u, Answers i s u ∧ coreFrozen u.dev n = true ∧
      u.dev.stalk.queues = s.dev.stalk.queues ∧ gR (regsOf u t) 1 = 0)

/-- 11 R329, R331: POST returns the code of the first check that fails and then posts nothing; otherwise, outside a block and with
room, the item with its stamp, class, source and words enters the queue of part p behind the items whose key is not above its own and before the
others, which stand as they were, and the code is 0; a late one has the first sample of the earliest computable block and counts. A thread of a frozen core posts nothing, and where no check fails
what its call returns is unstated.
The model's choices here are log entry 59. -/
def Obligations.PostEntersOneItem : Prop :=
  ∀ (s : State) (n t : Nat), Dispatched s n t → t < 2048 → (coreOf s.dev n).txn = none →
    let r := regsOf s t
    let p := (gR r 2).toNat
    let six := (gR r 3).toNat + 2 ^ 32 * (gR r 4).toNat
    let u0 := (gR r 5).toNat
    let u1 := if umpMt u0 = 4 then (gR r 6).toNat else 0
    let code : Nat := if mediaState s.dev < 2 then 5 else if 255 < p then 4 else if umpClass u0 = none then 3
      else if partOn s.dev p = false then 2 else if sixNow s.dev + horizon s.dev < six then 1 else 0
    let frozen : Prop := coreFrozen s.dev n = true
    (frozen → code = 0 → ∃ u v, Answers (.kPost n) s u ∧ OnlyRegs { s.dev with free := u.dev.free } u.dev n t ∧
      ScalarFrame r (regsOf u t) ∧ (regsOf u t).st = r.st ∧ WritesG r (regsOf u t) 1 v) ∧
    (code ≠ 0 ∨ (¬ frozen ∧ rangeTakes s.dev p u0 u1 = false) → ∃ u, Answers (.kPost n) s u ∧ OnlyRegs s.dev u.dev n t ∧
      ScalarFrame r (regsOf u t) ∧ (regsOf u t).st = r.st ∧ WritesG r (regsOf u t) 1 (BitVec.ofNat 32 code)) ∧
    let late : Prop := six < earliest s.dev
    let stamp : Nat := if late then earliest s.dev else six
    (¬ frozen → code = 0 → rangeTakes s.dev p u0 u1 = true → 0 < qRoom s.dev p → ∃ u v xs ys, Answers (.kPost n) s u ∧
      v.extractLsb' 0 40 = BitVec.ofNat 40 stamp ∧ (v.getLsbD 40 = true ↔ late) ∧ v.extractLsb' 41 3 = 0 ∧ umpClass u0 = some (evClass v) ∧
      evSrc v = 0x100 + t ∧ evU0 v = u0 ∧ evU1 v = u1 ∧
      numbered (queueOf s.dev p) = xs ++ ys ∧ (xs ++ ys).map (·.1) = (queueOf s.dev p).items ∧
      (∀ x ∈ xs, evKey s.dev x.1 ≤ evKey s.dev v) ∧ (∀ y, ys.head? = some y → evKey s.dev v < evKey s.dev y.1) ∧
      (let l := xs ++ (v, nextSeq s.dev) :: ys
       queueOf u.dev p = { queueOf s.dev p with items := l.map (·.1), seqs := l.map (·.2) }) ∧
      (late → oGet u.dev 0x0110 0x01 = min (topOf 0x0110 0x01) (oGet s.dev 0x0110 0x01 + 1)) ∧
      (¬ late → oGet u.dev 0x0110 0x01 = oGet s.dev 0x0110 0x01) ∧
      (∀ x, x ≠ p → queueOf u.dev x = queueOf s.dev x) ∧ WritesG r (regsOf u t) 1 0)

/-- 14 R429, R430, 16 R468, R472, R476, R483: END, YIELD, WAIT and SLEEP of a thread that runs no block, holds no flow and is
enabled on a core in service end its dispatch: the loop step applies, G1 takes 0 but for END, and the core is free when the scheduler then
looks at it. END of a thread with a DONE_CNT signals it. The thread is IDLE (or waits on WAKE_CNT), READY and in the list of its level, WAITING on the counter (READY where it is 0), or
DELAYED until the smallest multiple of its list's period at or above TICK_NOW plus the duration.
The model's choices here are log entry 14. -/
def Obligations.DispatchesThatEnd : Prop :=
  ∀ (s : State) (n t : Nat), Dispatched s n t → (coreOf s.dev n).txn = none → (thr s.dev t).flow = none →
    (thr s.dev t).conf = false → tOn s.dev t = true → tf s.dev 0x03 t = n → coreIn s.dev n = true →
    (coreOf s.dev n).stopped = false →
    let r := regsOf s t
    let wake := tf s.dev 0x0C t
    let done := tf s.dev 0x0D t
    let v := cnt s.dev done
    let after (k : Nat) : Nat := if done = 0xFFFF ∨ k ≠ done then cnt s.dev k
      else if v = 1 ∧ rs s.dev 0x5800 0x12 done = 1 then rs s.dev 0x5800 0x11 done else v - 1
    let signalled (d : Dev) : Prop := (∀ k, cnt d k = after k) ∧ (done ≠ 0xFFFF →
      (v = 0 → oGet d 0x5800 0x15 done = min (topOf 0x5800 0x15) (oGet s.dev 0x5800 0x15 done + 1)) ∧
      (v = 1 → oGet d 0x5800 0x14 done = min (topOf 0x5800 0x14) (oGet s.dev 0x5800 0x14 done + 1) ∧
        ∀ x, x ≠ t → (thr s.dev x).waitOn = some done → (thr d x).waitOn = none ∧
          ((thr s.dev x).st = .waiting → (thr d x).st = .ready ∧ x ∈ d.stalk.woken)))
    let a := (gR r 2).toNat
    let l := tf s.dev 0x07 t
    let period := rs s.dev (0x5E00 + l) 0x01
    let ends (i : Instr) (P : Dev → Prop) : Prop := ∃ u d, Answers i s u ∧ u.dev = handOver (schedule d) ∧
      (coreOf d n).run = none ∧ NextPc r (thr d t).regs ∧ P d
    let one (d : Dev) : Prop := ∀ x, gR (thr d t).regs x = if x = 1 then 0 else gR r x
    let granted : Prop := tf s.dev 0x08 t ≤ a ∧ a < tf s.dev 0x08 t + tf s.dev 0x09 t
    let inList (d : Dev) : Prop := t ∈ (if tf s.dev 0x06 t = 1 then mget [] (enterWoken d).stalk.privileged (lvl s.dev t)
      else mget [] (enterWoken d).stalk.ordinary (16 * n + lvl s.dev t))
    (wake = 0xFFFF → ends (.kEnd n) (fun d => signalled d ∧ (thr d t).st = .idle)) ∧
    (wake ≠ 0xFFFF → after wake ≠ 0 → ends (.kEnd n) (fun d => signalled d ∧ (thr d t).st = .waiting ∧ (thr d t).waitOn = some wake)) ∧
    (wake ≠ 0xFFFF → after wake = 0 → ends (.kEnd n) (fun d => signalled d ∧ (thr d t).st = .ready ∧ inList d)) ∧
    ends (.kYield n) (fun d => one d ∧ (thr d t).st = .ready ∧ inList d) ∧
    (granted → cnt s.dev a ≠ 0 → ends (.kWait n) (fun d => one d ∧ (thr d t).st = .waiting ∧ (thr d t).waitOn = some a)) ∧
    (granted → cnt s.dev a = 0 → ends (.kWait n) (fun d => one d ∧ (thr d t).st = .ready ∧ inList d)) ∧
    (1 ≤ a → a ≤ 16777215 → 0 < period → ends (.kSleep n) (fun d => one d ∧ (thr d t).st = .delayed ∧
      ∃ e, (e, t) ∈ mget [] d.stalk.delays l ∧ e % period = 0 ∧ tickNow s.dev + a ≤ e ∧ e < tickNow s.dev + a + period))

/-- 14 R424, R429, R431, 11 R330, 03 R74, R76, 16 R485, R491: inside a block, YIELD, WAIT and SLEEP return 5 and change nothing else; SIGNAL, QPUT and POST of
what is granted are staged for the seal; QGET gives the next item of the transaction's view, or the last that it read from an empty one, and the queue keeps
its items until the seal; END leaves the transaction to wait for its seal with the registers at the
end of the dispatch, and its core free. The model's choices here are log entries 14, 59. -/
def Obligations.KernelCallsInBlocks : Prop :=
  ∀ (s : State) (n t : Nat) (x : Txn), Dispatched s n t → (coreOf s.dev n).txn = some x →
    let r := regsOf s t
    let q := (gR r 2).toNat
    (∀ i ∈ [Instr.kYield n, .kWait n, .kSleep n], ∃ u, Answers i s u ∧ OnlyRegs s.dev u.dev n t ∧
      ScalarFrame r (regsOf u t) ∧ (regsOf u t).st = r.st ∧ WritesG r (regsOf u t) 1 5) ∧
    (counterGranted (asWindow s.dev n) t q = true → 128 ≤ q → x.used < 256 → ∃ u, Answers (.kSignal n) s u ∧
      (coreOf u.dev n).txn = some { x with used := x.used + 1, ops := x.ops ++ [.signal q] } ∧
      u.dev.stalk.counters = s.dev.stalk.counters ∧ WritesG r (regsOf u t) 1 0) ∧
    (queueGranted (asWindow s.dev n) t q = true → x.used < 256 → ∃ u, Answers (.kQput n) s u ∧
      (coreOf u.dev n).txn = some { x with used := x.used + 1, ops := x.ops ++ [.put q (vR r 0)] } ∧
      u.dev.stalk.queues = s.dev.stalk.queues ∧ ∀ y, y ≠ 1 → gR (regsOf u t) y = gR r y) ∧
    (let v := asWindow s.dev n
     let k := mget 0 x.reads q
     let left := (queueOf s.dev q).items.drop k
     queueGranted v t q = true → flowFor v q = none ∨ (∃ f, flowFor v q = some f ∧
       ((flowOf s.dev f).holder = some t ∨ ((flowOf s.dev f).holder = none ∧ (thr s.dev t).flow = none))) →
      ∃ u, Answers (.kQget n .ok) s u ∧ u.dev.stalk.queues = s.dev.stalk.queues ∧ NextPc r (regsOf u t) ∧
        (∀ f, flowFor v q = some f → flowOf u.dev f = { flowOf s.dev f with holder := some t, inService := decide (left ≠ []) } ∧
          (thr u.dev t).flow = some f) ∧
        (∀ i l, left = i :: l → vR (regsOf u t) 0 = i ∧ gR (regsOf u t) 1 = BitVec.ofNat 32 l.length ∧ (regsOf u t).st.getLsbD 22 = false ∧
          (coreOf u.dev n).txn = some { x with reads := mput 0 x.reads q (k + 1), lasts := mins x.lasts q i }) ∧
        (left = [] → vR (regsOf u t) 0 = (mfind x.lasts q).getD (queueOf s.dev q).last ∧ gR (regsOf u t) 1 = 0 ∧
          (regsOf u t).st.getLsbD 22 = true ∧ (coreOf u.dev n).txn = some x ∧
          oGet u.dev 0x5A01 0x06 q = min (topOf 0x5A01 0x06) (oGet s.dev 0x5A01 0x06 q + 1)) ∧
        (∀ y, y ≠ 1 → gR (regsOf u t) y = gR r y) ∧ ∀ y, y ≠ 0 → vR (regsOf u t) y = vR r y) ∧
    (let six := (gR r 3).toNat + 2 ^ 32 * (gR r 4).toNat
     let u0 := (gR r 5).toNat
     let u1 := if umpMt u0 = 4 then (gR r 6).toNat else 0
     ∀ c, umpClass u0 = some c → coreFrozen s.dev n = false → 2 ≤ mediaState s.dev → q ≤ 255 → partOn s.dev q = true →
      six ≤ sixNow s.dev + horizon s.dev → rangeTakes s.dev q u0 u1 = true → x.used < 256 → ∃ u, Answers (.kPost n) s u ∧
      (coreOf u.dev n).txn = some { x with used := x.used + 1, ops := x.ops ++ [.post ⟨q, 0, six, c, 0x100 + t, u0, u1⟩] } ∧
      u.dev.stalk.queues = s.dev.stalk.queues ∧ ScalarFrame r (regsOf u t) ∧ WritesG r (regsOf u t) 1 0) ∧
    (∃ u d, Answers (.kEnd n) s u ∧ u.dev = handOver (schedule d) ∧ (coreOf d n).run = none ∧ (coreOf d n).txn = none ∧
      ∃ y, (coreOf d n).ended = (coreOf s.dev n).ended ++ [y] ∧ y = { x with ended := y.ended } ∧
        ∃ e, y.ended = some e ∧ NextPc r e ∧ e.g = r.g ∧ e.v = r.v ∧ e.ac = r.ac)

/-! ### Services (04 R104-R146) -/

/-- 04 R101, R104, R111, R115, R736: READ answers NO-SUCH-OBJECT, ACCESS-DENIED for a WO object, TYPE-MISMATCH for a byte block,
and else the value: the highest sub-index for sub-index 0, for an RS scalar the staged value under STAGED while a staging
version exists and the active value otherwise. An RC object then takes its default; nothing else changes but the number of
free values used by a read of LINK_TIME_NOW. BLOCK-READ answers OFFSET, LEN and up to COUNT bytes of a byte block; where it meets no
memory error it changes nothing but, by a read of ITEM, LAST or the queue's UNDERRUNS (16 R491).
The model's choices here are log entries 13, 14, 19, 54. -/
def Obligations.ReadsAnswerValues : Prop :=
  ∀ (s : State) (p : Nat) (f : Frame) (e : Dev),
    let staged := bitOf f.flags 0
    (Heard s p 1 f e → Taken e p 1 f →
      (objAt f.idx f.sub = none → Reply (.read p f) s e p f 1 6 []) ∧
      ∀ r, objAt f.idx f.sub = some r → mayRead e p f.idx = true →
        let inst := selector e p r.row.win
        let acc := accAt r inst
        let dom : Prop := ∃ n, r.row.ty = .dom n
        let value := if f.sub = 0 then toLE 1 ((highestSub f.idx).getD 0) else readBytes e p staged r f.idx f.sub inst
        let e1 := if f.idx = 0x2020 ∧ f.sub = 1 then { e with free := e.free + 1 } else e
        (acc = .wo → Reply (.read p f) s e p f 1 3 []) ∧
        (acc ≠ .wo → dom → Reply (.read p f) s e p f 1 5 []) ∧
        (acc ≠ .wo → ¬ dom → Reply (.read p f) s
          (if acc = .rc then oSet e1 f.idx f.sub (defaultAt (okey f.idx f.sub inst)) inst else e1) p f 1 0 value) ∧
        (acc = .rs → f.sub ≠ 0 → (∀ n, r.row.ty ≠ .str n) → ¬ dom → r.row.win ≠ .program →
          value = toLE r.row.ty.size (vGet (if staged = true then e.ver.staging.getD e.ver.active else e.ver.active)
            f.idx f.sub inst))) ∧
    (Heard s p 3 f e → Taken e p 3 f → hasRight e p 0 = true → ∀ r n errs, objAt f.idx f.sub = some r → r.row.ty = .dom n →
      let inst := selector e p r.row.win
      let off := fieldAt f.payload 0 4
      let count := fieldAt f.payload 4 1
      let len := domLen e r f.idx inst
      accAt r inst ≠ .wo → (f.idx = 0x5A01 → hostQueue e inst = true) →
      let got := domRead e staged f.idx f.sub inst off (min count (len - off)) errs
      let bytes := domBytes e staged f.idx f.sub inst off (min count (len - off))
      (1 ≤ count → count ≤ 56 → off ≤ len → Reply (.blockRead p ⟨f, errs⟩) s got.2 p f 3 0 (toLE 4 off ++ toLE 4 len ++ got.1)) ∧
      (count = 0 ∨ 56 < count ∨ len < off → Reply (.blockRead p ⟨f, errs⟩) s e p f 3 4 []) ∧
      (f.idx ≠ 0x5A01 → errs = [] → got = (bytes, e)) ∧
      (f.idx = 0x5A01 → got.1 = bytes ∧ (∀ q, q ≠ inst → queueOf got.2 q = queueOf e q) ∧
        (∀ x y, (queueOf e inst).items = x :: y → 0 < min count (len - off) → queueOf got.2 inst = { queueOf e inst with last := x }) ∧
        ((queueOf e inst).items = [] → 0 < min count (len - off) → off < 16 → queueOf got.2 inst = queueOf e inst ∧
          oGet got.2 0x5A01 0x06 inst = min (topOf 0x5A01 0x06) (oGet e 0x5A01 0x06 inst + 1))))

/-- 04 R104, R107, R112, R138-R141, R736, 05 R168: a READ of an object outside 0x0000-0x0FFF and the port's own objects without RD, and a WRITE
without the right its access code asks for, are violations: the port freezes under cause 4 with the request's SEQ in the record,
its staging version is dropped, and the request is answered ACCESS-DENIED. So is a WRITE or a segment of a BLOCK-WRITE of an RO, RC or CO object, under
cause 1. A WRITE for which the bucket of the port's quota holds too little freezes it under cause 2 and is answered FROZEN.
A request that a frozen port does not execute is answered FROZEN and changes nothing but EVENTS_DROPPED, by the packets of an EVENT. One that breaks
a layout rule is answered TYPE-MISMATCH and is a protocol error, and the one that reaches PROTO_LIMIT freezes the port under cause 3. A request that
repeats the SEQ of a kept response is answered with that response again, is not executed, and counts in RETRANSMITS.
The model's choices here are log entries 19, 20. -/
def Obligations.ViolationsFreezeThePort : Prop :=
  let refused (s : State) (p : Nat) (f : Frame) (e : Dev) (i : Instr) (svc cause code : Nat) : Prop := ∃ u, Answers i s u ∧ frozen u.dev p = true ∧
      oGet u.dev (0x1000 + p) 0x07 = cause ∧ (port u.dev p).outq = [] ∧ (port u.dev p).xfer = none ∧
      ¬ (u.dev.ver.stage = .opened ∧ u.dev.ver.owner = some p) ∧
      (∃ x ∈ u.dev.faults, x.kind = 7 ∧ x.unit = 0xC0 + p ∧ x.detail = cause ∧ x.addr = f.seq) ∧
      (port u.dev p).store = lastN 32 ((port e p).store ++ [⟨f.node, f.seq, svc, code, f.idx, f.sub, []⟩])
  (∀ (s : State) (p : Nat) (f : Frame) (e : Dev) (r : ObjRef), frozen e p = false → objAt f.idx f.sub = some r →
    let inst := selector e p r.row.win
    let acc := accAt r inst
    let refused := refused s p f e
    (Heard s p 1 f e → badFrame 1 f = false → mayRead e p f.idx = false → refused (.read p f) 1 4 3) ∧
    (∀ e1, Heard s p 2 f e → takeQuota e p = some e1 → badFrame 2 f = false → mayWrite e p acc f.idx f.sub = false →
      refused (.write p f) 2 4 3) ∧
    (∀ e1, takeQuota e p = some e1 → mayWrite e p acc f.idx f.sub = true → ungranted e p f.idx f.sub inst = false →
      acc ∈ [Acc.ro, .rc, .co] → (Heard s p 2 f e → badFrame 2 f = false → refused (.write p f) 2 1 3) ∧
        (Heard s p 4 f e → badFrame 4 f = false → segmentOk e p f = true → refused (.blockWrite p f) 4 1 3)) ∧
    (Heard s p 2 f e → takeQuota e p = none → refused (.write p f) 2 2 8)) ∧
  (∀ (s : State) (p : Nat) (f : Frame) (errs : List (Nat × Bool)) (e : Dev), ∀ x ∈ requests p f errs, Heard s p x.1 f e →
    let with' (e d : Dev) (sub n : Nat) : Prop := oGet d (0x1000 + p) sub = min (topOf (0x1000 + p) sub) (oGet e (0x1000 + p) sub + n) ∧
      (∀ i k j, okey i k j ≠ okey (0x1000 + p) sub 0 → oGet d i k j = oGet e i k j) ∧ (∀ q, q ≠ p → port d q = port e q) ∧
      { d with obj := e.obj, ports := e.ports } = e
    (frozen e p = true → allowedFrozen p x.1 f = false → ∃ d, Reply x.2 s d p f x.1 8 [] ∧ port d p = port e p ∧
      with' e d 0x0D (if x.1 = 0x0A then eventPackets f else 0)) ∧
    (∀ e1, frozen e p = false ∨ allowedFrozen p x.1 f = true → (if charged x.1 = true then takeQuota e p else some e) = some e1 →
      badFrame x.1 f = true →
      let n := (port e1 p).protoCount + 1
      let limit := rs e (0x1000 + p) 0x04
      (limit = 0 ∨ n < limit → ∃ d, Reply x.2 s d p f x.1 5 [] ∧ port d p = { port e1 p with protoCount := n } ∧ with' e1 d 0x0A 1) ∧
      (limit ≠ 0 → limit ≤ n → frozen e p = false → refused s p f e x.2 x.1 3 5))) ∧
  ∀ (s : State) (p : Nat) (f : Frame) (errs : List (Nat × Bool)) (r : Resp) (c : Dev), ∀ x ∈ requests p f errs, Repeats s p x.1 f r c →
    let again := svcFrame r.seq (128 + r.svc) r.code r.idx r.sub r.payload
    let sent : Prop := ¬ (r.code = 0 ∧ bitOf f.flags 1 = true)
    ∃ u, Answers x.2 s u ∧ oGet u.dev (0x1000 + p) 0x10 = min (topOf (0x1000 + p) 0x10) (oGet c (0x1000 + p) 0x10 + 1) ∧
      (∀ q, port u.dev q = port c q) ∧
      (∀ l, linkOf u.dev l = if l = p ∧ p < 4 ∧ sent then { linkOf c p with wait := (linkOf c p).wait ++ [⟨r.node, .service, again⟩] } else linkOf c l) ∧
      (∀ n, uartOf u.dev n = if n + 4 = p ∧ sent then { uartOf c n with frames := (uartOf c n).frames ++ [stuff c n again] } else uartOf c n) ∧
      (∀ i k j, okey i k j ≠ okey (0x1000 + p) 0x10 0 → oGet u.dev i k j = oGet c i k j) ∧
      { u.dev with obj := c.obj, ports := c.ports, links := c.links, uarts := c.uarts } = c

/-- 04 R104, R130, R131, R132, R139: a WRITE of an RS scalar or of a NAME takes its quota, and enters the staging version, which opens as
a copy of the active version under the next number; another port's staging version answers STAGE-CONFLICT, the port's own pending one BUSY; a value
outside its range answers OUT-OF-RANGE. A BLOCK-WRITE segment with FIRST and without LAST opens a transfer; one with LAST stages an RS byte block
whole and closes it. The model's choices here are log entries 19, 21. -/
def Obligations.WritesOfStagedObjects : Prop :=
  ∀ (s : State) (p : Nat) (f : Frame) (e e1 : Dev) (r : ObjRef), objAt f.idx f.sub = some r → r.row.acc = .rs → f.sub ≠ 0 →
    mayWrite e p .rs f.idx f.sub = true → takeQuota e p = some e1 → coreAway e f.idx = false →
    let inst := selector e p r.row.win
    let own : Prop := (e.ver.stage = .idle ∧ e.ver.staging = none) ∨
      (e.ver.stage = .opened ∧ e.ver.owner = some p ∧ e.ver.staging.isSome = true)
    let base : Version := e.ver.staging.getD { e.ver.active with num := e.ver.highest + 1 }
    let with' (d : Dev) (v : Version) : Dev := { d with ver := { e.ver with
      staging := some v, owner := some p, stage := .opened
      highest := if e.ver.staging.isSome then e.ver.highest else e.ver.highest + 1 } }
    let open' (d : Dev) (x : Option Xfer) : Dev := modPort d p (fun y => { y with xfer := x })
    (Heard s p 2 f e → Taken e p 2 f → accAt r inst = .rs → (∀ n, r.row.ty ≠ .dom n) →
      (valueTest r inst f.payload = some false → Reply (.write p f) s e1 p f 2 4 []) ∧
      (valueTest r inst f.payload = none →
        (own → ∃ v, Reply (.write p f) s (with' e1 v) p f 2 0 [] ∧ v = putRs base r f.idx f.sub inst 0 f.payload ∧
          (r.row.win ≠ .program → (∀ n, r.row.ty ≠ .str n) → Stages base v f.idx f.sub inst (fromLE f.payload))) ∧
        (e.ver.stage ≠ .idle → e.ver.owner ≠ some p → Reply (.write p f) s e1 p f 2 2 []) ∧
        (e.ver.stage = .commitPending ∨ e.ver.stage = .revertPending → e.ver.owner = some p →
          Reply (.write p f) s e1 p f 2 7 []))) ∧
    (Heard s p 4 f e → badFrame 4 f = false → frozen e p = false → accAt r inst = .rs → f.idx ≠ 0x5A01 → ∀ n, r.row.ty = .dom n →
      let off := fieldAt f.payload 0 4
      let data := f.payload.drop 4
      let x : Xfer := match (port e p).xfer with
        | some x => if bitOf f.flags 2 then ⟨f.idx, f.sub, inst, off, data⟩ else { x with data := x.data ++ data, inst := inst }
        | none => ⟨f.idx, f.sub, inst, off, data⟩
      segmentOk e p f = true → (bitOf f.flags 2 = true → (port e p).xfer = none) → ¬ domLen e r f.idx x.inst < off + data.length →
      ¬ ((f.idx = 0x6801 ∨ (f.idx = 0x6100 ∧ f.sub = 0x10)) ∧ 65536 < x.data.length) → intoConst e f.idx off = false →
      (bitOf f.flags 3 = false → Reply (.blockWrite p f) s (open' e1 (some x)) p f 4 0 []) ∧
      (bitOf f.flags 3 = true → own → Reply (.blockWrite p f) s
        (open' (with' e1 (putRs base r x.idx x.sub x.inst x.first x.data)) none) p f 4 0 []))

/-- 04 R126, R127, R736: a WRITE of an RW or WO object that has no behaviour of its own, and a whole BLOCK-WRITE to memory,
wait for the end of the Link cycle: the write stands last among the cycle's, and its answer waits; nothing else changes but the
quota. At the end, the write of the port of best rank is applied, whether it arrived first or second, and the other port's is answered
WRITE-SUPERSEDED and counted in its SUPERSEDED; of two writes of one port the last is applied and the earlier answered OK. The model's choices here are log entries 17, 19. -/
def Obligations.LiveWritesWaitForTheCycleEnd : Prop :=
  (∀ (s : State) (p : Nat) (f : Frame) (e e1 : Dev) (r : ObjRef), objAt f.idx f.sub = some r → f.sub ≠ 0 →
    frozen e p = false → r.row.acc = .rw ∨ r.row.acc = .wo →
    let inst := selector e p r.row.win
    mayWrite e p (accAt r inst) f.idx f.sub = true → ungranted e p f.idx f.sub inst = false → takeQuota e p = some e1 →
    readOnly (accAt r inst) = false →
    let off := if f.idx = 0x0300 then oGet e 0x0300 0x01 else 0
    Heard s p 2 f e → badFrame 2 f = false → (∀ n, r.row.ty ≠ .dom n) → valueTest r inst f.payload = none →
    selectorOf f.idx f.sub = none → ¬ (f.idx = 0x5A01 ∧ f.sub = 0x0A) → liveCode e1 f.idx f.sub inst off f.payload = 0 →
    ∃ u, Answers (.write p f) s u ∧ u.dev.live = e1.live ++ [⟨p, 2, f, f.idx, f.sub, inst, off, f.payload⟩] ∧
      port u.dev p = { port e1 p with outq := [.live f 2 none] } ∧ (∀ q, q ≠ p → port u.dev q = port e1 q) ∧
      { u.dev with live := e1.live, ports := e1.ports } = e1) ∧
  (∀ (s : State) (p : Nat) (f : Frame) (e e1 : Dev) (r : ObjRef) (n : Nat), objAt f.idx f.sub = some r →
    frozen e p = false → r.row.acc = .rw ∨ r.row.acc = .wo → r.row.ty = .dom n → f.idx ≠ 0x5A01 →
    let inst := selector e p r.row.win
    let off := fieldAt f.payload 0 4
    let data := f.payload.drop 4
    mayWrite e p (accAt r inst) f.idx f.sub = true → takeQuota e p = some e1 → readOnly (accAt r inst) = false →
    Heard s p 4 f e → badFrame 4 f = false → bitOf f.flags 2 = true → bitOf f.flags 3 = true → (port e p).xfer = none →
    ¬ domLen e r f.idx inst < off + data.length → ¬ ((f.idx = 0x6801 ∨ (f.idx = 0x6100 ∧ f.sub = 0x10)) ∧ 65536 < data.length) →
    intoConst e f.idx off = false → liveCode e1 f.idx f.sub inst off data = 0 →
    ∃ u, Answers (.blockWrite p f) s u ∧ u.dev.live = e1.live ++ [⟨p, 4, f, f.idx, f.sub, inst, off, data⟩] ∧
      port u.dev p = { port e1 p with outq := [.live f 4 none], xfer := none } ∧ (∀ q, q ≠ p → port u.dev q = port e1 q) ∧
      { u.dev with live := e1.live, ports := e1.ports } = e1) ∧
  (∀ (d : Dev) (a b : Live), d.live = [b, a] → a.same b = true → a.port ≠ b.port →
    rs d (0x1000 + a.port) 0x02 < rs d (0x1000 + b.port) 0x02 →
    (port d a.port).outq = [.live a.frame a.svc none] → (port d b.port).outq = [.live b.frame b.svc none] →
    let d1 := bump (modPort { d with live := [] } b.port (fun x => { x with outq := [.live b.frame b.svc (some 1)] })) (0x1000 + b.port) 0x0C
    let x := applyLive d1 a.port a.idx a.sub a.inst a.off a.data
    (∀ q, port x.2 q = port d1 q) →
    oGet d1 (0x1000 + b.port) 0x0C = min (topOf (0x1000 + b.port) 0x0C) (oGet d (0x1000 + b.port) 0x0C + 1) ∧
      resolveLive d = modPort x.2 a.port (fun y => { y with outq := [.live a.frame a.svc (some x.1)] })) ∧
  (∀ (d : Dev) (a b : Live), d.live = [a, b] → a.same b = true → a.port = b.port →
    (port d a.port).outq = [.live a.frame a.svc none, .live b.frame b.svc none] →
    let d1 := modPort { d with live := [] } a.port (fun x => { x with outq := [.live a.frame a.svc (some 0), .live b.frame b.svc none] })
    let x := applyLive d1 b.port b.idx b.sub b.inst b.off b.data
    (∀ q, port x.2 q = port d1 q) →
    resolveLive d = modPort x.2 b.port (fun y => { y with outq := [.live a.frame a.svc (some 0), .live b.frame b.svc (some x.1)] })) ∧
  ∀ (d : Dev) (a b : Live), d.live = [a, b] → a.same b = true → a.port ≠ b.port →
    rs d (0x1000 + a.port) 0x02 < rs d (0x1000 + b.port) 0x02 →
    (port d a.port).outq = [.live a.frame a.svc none] → (port d b.port).outq = [.live b.frame b.svc none] →
    let x := applyLive { d with live := [] } a.port a.idx a.sub a.inst a.off a.data
    (∀ q, port x.2 q = port d q) → x.2.ver.active = d.ver.active →
    let e := resolveLive d
    (port e a.port).outq = [.live a.frame a.svc (some x.1)] ∧ (port e b.port).outq = [.live b.frame b.svc (some 1)] ∧
      oGet e (0x1000 + b.port) 0x0C = min (topOf (0x1000 + b.port) 0x0C) (oGet x.2 (0x1000 + b.port) 0x0C + 1) ∧
      (∀ i k n, okey i k n ≠ okey (0x1000 + b.port) 0x0C 0 → oGet e i k n = oGet x.2 i k n) ∧
      { e with obj := x.2.obj, ports := x.2.ports } = x.2

/-- 04 R116, R132-R136: the answers of COMMIT, REVERT and ABORT in every state of the version machine. A COMMIT answers the code of
its first failing check and changes nothing; one that passes zeroes what its new heap items take, fills the heads the version arms, and while
the media runs leaves the switch pending for boundary max(ceil(REQ_SIX / B), m + 1); with the media stopped the request is answered, with
EFF_BOUNDARY all ones, and the switch follows the response, at once or, where it restarts the port itself, once the response has left it. REVERT does the same with the previous version; ABORT discards staging or the pending switch.
At the switch of a COMMIT the staging version is active and the one that was active is previous; at that of a REVERT the previous version is active and
none is previous; the version machine is then IDLE, and the boundary is kept.
The model's choices here are log entries 26, 27, 63. -/
def Obligations.VersionRequestsAreAnswered : Prop :=
  (∀ (d e : Dev) (x : Version) (b : Nat),
    (switchHeld d = false ∧ d.ver.switchAt.getD 0 ≤ b ∧ e = switchDue d b) ∨ (b = 0 ∧ e = switchNow d) →
    let becomes (act : Version) (prev : Option Version) : Prop := e.ver.active = act ∧ e.ver.previous = prev ∧ e.ver.staging = none ∧
      e.ver.owner = none ∧ e.ver.stage = .idle ∧ e.ver.switchAt = none ∧ e.ver.untold = none ∧ e.ver.highest = d.ver.highest ∧
      e.ver.startAfter = d.ver.startAfter ∧ oGet e 0x0020 0x07 = (if mediaRuns d then b else 2 ^ 64 - 1)
    (d.ver.stage = .commitPending → d.ver.staging = some x → becomes { x with caps := [] } (some d.ver.active)) ∧
    (d.ver.stage = .revertPending → d.ver.previous = some x → becomes x none) ∧
    (d.ver.stage = .idle ∨ d.ver.stage = .opened → e = d)) ∧
  (∀ (d : Dev) (k : Nat), switchHeld d = true ∨ k < d.ver.switchAt.getD 0 → switchDue d k = d) ∧
  ∀ (s : State) (p : Nat) (f : Frame) (e e1 : Dev) (errs : List (Nat × Bool)), hasRight e p 2 = true → takeQuota e p = some e1 →
    let req := fieldAt f.payload 0 8
    let v := e.ver
    let mine : Prop := v.owner = some p
    let pay (n b : Nat) : List Byte := toLE 4 n ++ toLE 8 b
    let m := max (ceilDiv req (blockLen e)) (e.media.block + 1)
    let told (x : Version) : Option Nat := if portRestarts v.active x p = true then some p else none
    let answers (i : Instr) (d : Dev) (svc n : Nat) : Prop := ∃ u t, Answers i s u ∧ Told d t p f svc 0 (pay n (2 ^ 64 - 1)) ∧
      (switchHeld t = true → u.dev = t) ∧
      (switchHeld t = false → (port (switchNow t) p).outq = [] → (∀ q, port u.dev q = port (switchNow t) q) ∧
        { u.dev with ports := (switchNow t).ports } = switchNow t)
    (Heard s p 5 f e → Taken e p 5 f →
      (v.stage = .idle → v.staging = none → Reply (.commit p f errs) s e1 p f 5 0 (pay v.active.num 0)) ∧
      (v.stage ≠ .idle → ¬ mine → Reply (.commit p f errs) s e1 p f 5 2 []) ∧
      (v.stage = .commitPending ∨ v.stage = .revertPending → mine → Reply (.commit p f errs) s e1 p f 5 7 []) ∧
      ∀ w, v.stage = .opened → mine → v.staging = some w →
        (∀ c, commitChecks e1 w req = .inl c → c ≠ 0 → Reply (.commit p f errs) s e1 p f 5 c []) ∧
        ∀ x, commitChecks e1 w req = .inr x →
          let d := fillHeads (zeroRanges e1 (newItems v.active x)) x errs
          (mediaRuns e = true → Reply (.commit p f errs) s
            { d with ver := { v with staging := some x, stage := .commitPending, switchAt := some m, untold := told x } } p f 5 0 (pay x.num m)) ∧
          (mediaRuns e = false → answers (.commit p f errs)
            { d with ver := { v with staging := some x, stage := .commitPending, switchAt := none, untold := told x } } 5 x.num)) ∧
    (Heard s p 6 f e → Taken e p 6 f →
      (v.stage ≠ .idle → ¬ mine → Reply (.revert p f errs) s e1 p f 6 2 []) ∧
      (v.stage ≠ .idle → mine → Reply (.revert p f errs) s e1 p f 6 7 []) ∧
      (v.stage = .idle → v.previous = none → Reply (.revert p f errs) s e1 p f 6 9 []) ∧
      ∀ x, v.stage = .idle → v.previous = some x →
        (revertChecks e1 x req ≠ 0 → Reply (.revert p f errs) s e1 p f 6 (revertChecks e1 x req) []) ∧
        (revertChecks e1 x req = 0 →
          let d := fillHeads (zeroRanges e1 (poolHit v.active x)) x errs
          (mediaRuns e = true → Reply (.revert p f errs) s
            { d with ver := { v with owner := some p, stage := .revertPending, switchAt := some m, untold := told x } } p f 6 0 (pay x.num m)) ∧
          (mediaRuns e = false → answers (.revert p f errs)
            { d with ver := { v with owner := some p, stage := .revertPending, switchAt := none, untold := told x } } 6 x.num))) ∧
    (Heard s p 7 f e → Taken e p 7 f →
      (v.stage = .idle → Reply (.abort p f) s e1 p f 7 0 (toLE 4 0)) ∧
      (v.stage ≠ .idle → mine ∨ hasRight e p 4 = true → Reply (.abort p f) s
        { e1 with ver := { v with staging := none, owner := none, stage := .idle, switchAt := none, untold := none } } p f 7 0
        (toLE 4 ((v.staging.map (·.num)).getD 0))) ∧
      (v.stage ≠ .idle → ¬ mine → hasRight e p 4 = false → Reply (.abort p f) s e1 p f 7 2 []))

/-- 04 R116, R121, R124, R144, R145: SUBSCRIBE registers an object instance for the requesting node, replacing its earlier subscription,
or answers ACCESS-DENIED, TYPE-MISMATCH, or OUT-OF-RANGE beyond 64 or for a period of 0; UNSUBSCRIBE cancels one or all; IDENTIFY answers
the 24 bytes of R124; UNFREEZE of another port or a core by a supervisor lifts its freeze (FREEZE_CAUSE then reads 0, log entry 29), of the port itself records the request,
and of another port or a core by a port without SV is a violation of cause 4, which freezes that port.
The model's choices here are log entries 25, 28, 29. -/
def Obligations.SubscriptionsIdentityAndUnfreeze : Prop :=
  ∀ (s : State) (p : Nat) (f : Frame) (e : Dev),
    let subs (l : List Subscription) : Dev := modPort e p (fun x => { x with subs := l })
    (Heard s p 8 f e → Taken e p 8 f → ∀ r, objAt f.idx f.sub = some r → mayRead e p f.idx = true →
      let inst := selector e p r.row.win
      let mode := fieldAt f.payload 0 1
      let per := fieldAt f.payload 1 2
      let dom : Prop := ∃ n, r.row.ty = .dom n
      let l := (port e p).subs.filter (fun x => !(x.idx == f.idx && x.sub == f.sub && x.inst == inst))
      (accAt r inst = .wo → Reply (.subscribe p f) s e p f 8 3 []) ∧
      (accAt r inst ≠ .wo → dom ∨ 1 < mode → Reply (.subscribe p f) s e p f 8 5 []) ∧
      (accAt r inst ≠ .wo → ¬ dom → mode ≤ 1 → (mode = 1 ∧ per = 0) ∨ 64 ≤ l.length → Reply (.subscribe p f) s e p f 8 4 []) ∧
      (accAt r inst ≠ .wo → ¬ dom → mode ≤ 1 → ¬ (mode = 1 ∧ per = 0) → l.length < 64 → Reply (.subscribe p f) s
        (subs (l ++ [⟨f.node, f.idx, f.sub, inst, mode, per, per, none⟩])) p f 8 0 [])) ∧
    (Heard s p 9 f e → Taken e p 9 f →
      (f.idx = 0 → f.sub = 0 → Reply (.unsubscribe p f) s (subs []) p f 9 0 []) ∧
      ∀ r, ¬ (f.idx = 0 ∧ f.sub = 0) → objAt f.idx f.sub = some r → mayRead e p f.idx = true →
        Reply (.unsubscribe p f) s (subs ((port e p).subs.filter (fun x =>
          !(x.idx == f.idx && x.sub == f.sub && x.inst == selector e p r.row.win)))) p f 9 0 []) ∧
    (Heard s p 0x0C f e → badFrame 0x0C f = false → ∃ b, Reply (.identify p f) s e p f 0x0C 0 b ∧ b.length = 24 ∧
      fieldAt b 0 2 = 0x54D3 ∧ fieldAt b 2 2 = 0x8100 ∧ fieldAt b 5 1 = 1 ∧ fieldAt b 20 1 = p ∧
      fieldAt b 21 1 = rs e (0x1000 + p) 0x01 % 256 ∧ bitOf (fieldAt b 22 1) 0 = frozen e p ∧
      (bitOf (fieldAt b 22 1) 1 = true ↔ e.ver.owner = some p ∧ (e.ver.stage = .opened ∨ e.ver.stage = .commitPending)) ∧
      bitOf (fieldAt b 22 1) 2 = bitOf (oGet e (0x1000 + p) 0x08) 0 ∧ fieldAt b 23 1 = 0) ∧
    (Heard s p 0x0B f e → Taken e p 0x0B f →
      let t := fieldAt f.payload 0 1
      (8 ≤ t → t < 0x40 ∨ 0x54 ≤ t → Reply (.unfreeze p f) s e p f 0x0B 4 []) ∧
      (t = p → frozen e p = false → Reply (.unfreeze p f) s e p f 0x0B 0 []) ∧
      (t = p → frozen e p = true → ∃ u, Answers (.unfreeze p f) s u ∧ frozen u.dev p = true ∧ oGet u.dev (0x1000 + p) 0x08 = 1 ∧
        ((port u.dev p).selfTimer = true ↔ (port e p).selfTimer = true ∨
          (hasRight e p 4 = true ∧ ∀ q, q < 8 → ¬ ((port e q).session = true ∧ frozen e q = false ∧ hasRight e q 4 = true)))) ∧
      (t ≠ p → t < 8 → hasRight e p 4 = true → Reply (.unfreeze p f) s (thawPort e t p) p f 0x0B 0 []) ∧
      (0x40 ≤ t → t < 0x54 → hasRight e p 4 = true → Reply (.unfreeze p f) s (thawCore e (t - 0x40) p) p f 0x0B 0 []) ∧
      (t ≠ p → t < 8 ∨ (0x40 ≤ t ∧ t < 0x54) → hasRight e p 4 = false → frozen e p = false → ∃ u, Answers (.unfreeze p f) s u ∧
        frozen u.dev p = true ∧ oGet u.dev (0x1000 + p) 0x07 = 4 ∧ (t < 8 → frozen u.dev t = frozen e t) ∧
        ∃ x ∈ u.dev.faults, x.kind = 7 ∧ x.unit = 0xC0 + p ∧ x.detail = 4 ∧ x.addr = f.seq)) ∧
    ∀ t, frozen e t = true → t < 8 → let d := thawPort e t p
      frozen d t = false ∧ oGet d (0x1000 + t) 0x07 = 0 ∧ oGet d (0x1000 + t) 0x08 = 0 ∧
        (port d t).bucket = 8 * rs e (0x1000 + t) 0x03 ∧ (port d t).protoCount = 0 ∧ (port d t).selfTimer = false ∧
        ∃ x ∈ d.faults, x.kind = 9 ∧ x.unit = 0xC0 + t ∧ x.detail = p

/-- 04 R120, 11 R318, R739, 02 R40, R41: an EVENT frame with the media stopped is answered BUSY when a packet of it could create an item and else OK with
its packet count. While the media runs, a stamp beyond the horizon is answered OUT-OF-HORIZON; else the items enter their queues together and the
answer is OK with the packet count, followed by the identity replies; without room nothing enters and the request waits (a UART port may show
its full queues by XOFF, 04 R113). EVENT_QUEUE_ENTRY then lets it go on. The model's choices here are log entries 23, 60. -/
def Obligations.EventRequests : Prop :=
  ∀ (s : State) (p : Nat) (f : Frame) (e : Dev),
    let ps := (eventPkts f).getD []
    let type := fieldAt f.payload 0 1
    let stamp : Option Nat := if type = 2 then e.time.anchor.map (fun a => toSix e a (fieldAt f.payload 4 8)) else some (fieldAt f.payload 4 8)
    let heard : Prop := Heard s p 0x0A f e ∧ Taken e p 0x0A f ∧ hasRight e p 3 = true
    let replied (i : Instr) (d : Dev) (f : Frame) (n : Nat) (gs : List Nat) (g : Dev → Dev) : Prop := ∃ u d', Answers i s u ∧
      Told d d' p f 0x0A 0 (toLE 1 n) ∧ (∀ q, port u.dev q = port (g (sendReplies d' p f.node gs)) q) ∧
      { u.dev with ports := (g (sendReplies d' p f.node gs)).ports } = g (sendReplies d' p f.node gs)
    (heard → mediaRuns e = false → ps.any makesItem = true → Reply (.event p f) s e p f 0x0A 7 []) ∧
    (heard → mediaRuns e = false → ps.any makesItem = false → replied (.event p f) e f ps.length (ps.filterMap inquiryOf) id) ∧
    (heard → mediaRuns e = true → stamp = none → Reply (.event p f) s e p f 0x0A 7 []) ∧
    (∀ six, heard → mediaRuns e = true → stamp = some six →
      let w := waitOf e p six (type = 0) f ps
      (type ≠ 0 → sixNow e + horizon e < six → Reply (.event p f) s e p f 0x0A 0x0A []) ∧
      (type = 0 ∨ six ≤ sixNow e + horizon e →
        (evRoom e w.items = true → replied (.event p f) (enterWait e w) f ps.length (ps.filterMap inquiryOf) id) ∧
        (evRoom e w.items = false → ∃ u, Answers (.event p f) s u ∧ (port u.dev p).outq = [.event w] ∧
          (∀ q, q ≠ p → port u.dev q = port e q) ∧ u.dev.stalk = e.stalk ∧ u.dev.links = e.links ∧
          ∀ n, n + 4 ≠ p → uartOf u.dev n = uartOf e n))) ∧
    (∀ w, Awake s → p < 8 → (port s.dev p).outq = [.event w] → (4 ≤ p → (uartOf s.dev (p - 4)).midiWait = none) →
      evRoom s.dev w.items = true → replied (.eventQueueEntry p) (enterWait s.dev w) w.frame w.packets w.inquiries (fun d => showFlow d p))

/-- 04 R110, R116, R140, R145: a frame whose CRC or length fails counts in CRC_ERRORS of its port, if it is in session, and nothing else happens
but the guard test and the forwarding of a chain (17 R529, R534). A request with
a service code that does not exist counts as a protocol error and is answered TYPE-MISMATCH; the count that reaches PROTO_LIMIT freezes the port
under cause 3; a frame with DIR 1 counts and is not answered. The period's end sets every count to 0. The self-unfreeze lifts the freeze.
The model's choices here are log entry 22. -/
def Obligations.PortHousekeeping : Prop :=
  (∀ (s : State) (f : BadFrame), Awake s → f.port < 8 → (port s.dev f.port).session = true →
    let p := f.port
    let g := if receives s.dev p then guardTest s.dev p f.node f.off else (true, s.dev)
    let d := if receives s.dev p then forwardFrame g.2 p f.node f.bytes else s.dev
    (g.1 = true → Makes (.serviceFrameDiscard f) s
      (oSet d (0x1000 + p) 0x0B (min (topOf (0x1000 + p) 0x0B) (oGet d (0x1000 + p) 0x0B + 1)))) ∧
    (g.1 = false → Makes (.serviceFrameDiscard f) s g.2)) ∧
  (∀ (s : State) (p svc : Nat) (f : Frame) (e : Dev), Heard s p svc f e → svc = 0 ∨ (0x0D ≤ svc ∧ svc < 128) →
    frozen e p = false → let n := (port e p).protoCount + 1
    let lim := rs e (0x1000 + p) 0x04
    let d := modPort (bump e (0x1000 + p) 0x0A) p (fun x => { x with protoCount := n })
    (lim = 0 ∨ n < lim → Reply (.invalidServiceFrame p svc f) s d p f svc 5 []) ∧
    (lim ≠ 0 → lim ≤ n → ∃ u, Answers (.invalidServiceFrame p svc f) s u ∧ frozen u.dev p = true ∧ oGet u.dev (0x1000 + p) 0x07 = 3)) ∧
  (∀ (s : State) (p svc : Nat) (f : Frame), Awake s → 4 ≤ p → p < 8 → (port s.dev p).session = true → 128 ≤ svc →
    let n := (port s.dev p).protoCount + 1
    let lim := rs s.dev (0x1000 + p) 0x04
    lim = 0 ∨ n < lim → Makes (.invalidServiceFrame p svc f) s
      (modPort (bump s.dev (0x1000 + p) 0x0A) p (fun x => { x with protoCount := n }))) ∧
  (∀ s, Awake s → ∃ u, Answers .protoPeriodEnd s u ∧ { u.dev with ports := s.dev.ports } = s.dev ∧
    ∀ p, port u.dev p = if p < 8 then { port s.dev p with protoCount := 0 } else port s.dev p) ∧
  ∀ (s : State) (p : Nat), Awake s → p < 8 → (port s.dev p).selfTimer = true → frozen s.dev p = true →
    ∃ u, Answers (.selfUnfreeze p) s u ∧ frozen u.dev p = false ∧ (port u.dev p).selfTimer = false ∧
      (port u.dev p).bucket = 8 * rs s.dev (0x1000 + p) 0x03

/-! ### Writes of objects with a behaviour of their own -/

/-- 04 R126, R736: a row of the table that stands for the write of an object is that WRITE. When something waits on the port, or the request
is not one that waits for the end of its Link cycle (a selector, TAKE, or any request that a test turns away), the row does
exactly what the WRITE does. MEDIA_STOP is a row for a running media and MEDIA_START_ABANDON for a starting one.
The model's choices here are log entry 16. -/
def Obligations.ObjectWritesAreWrites : Prop :=
  ∀ (i : Instr) (s u : State) (p : Nat) (f : Frame), writeOf i = some (p, f) → exec (.write p f) s = .next u →
    let asked : Prop := match i with
      | .mediaStop _ _ => mediaRuns s.dev = true
      | .mediaStartAbandon _ _ => mediaState s.dev = 1
      | _ => True
    (asked → (port s.dev p).outq ≠ [] ∨ u.dev.live.length ≤ s.dev.live.length → exec i s = .next u) ∧
    (¬ asked → exec i s = .next s)

/-- 02 R43, R44, R46, R52, R54, R56, 03 R93, 05 R167, 23 R692: what the lone writes of the media, of Link time, of the digest's mark and of the fault log do.
The model's choices here are log entries 16, 17, 58, 68. -/
def Obligations.WritesOfMediaTimeAndLog : Prop :=
  ∀ (s : State) (p : Nat) (h : Hdr) (inst off : Nat) (d : Dev),
    (Alone s p (writeFrame h 0x2000 0x01 1 1) inst off d →
      (mediaState d ≠ 0 → Reply (.mediaStart p h) s (oSet d 0x2000 0x01 1) p (writeFrame h 0x2000 0x01 1 1) 2 0 []) ∧
      (mediaState d = 0 → switchPending d = true →
        Reply (.mediaStart p h) s { oSet d 0x2000 0x01 1 with ver := { d.ver with startAfter := true } } p (writeFrame h 0x2000 0x01 1 1) 2 0 []) ∧
      (mediaState d = 0 → switchPending d = false → ∃ x, Reply (.mediaStart p h) s x p (writeFrame h 0x2000 0x01 1 1) 2 0 [] ∧
        oGet x 0x2000 0x01 = 1 ∧ mediaState x = 1 ∧ oGet x 0x2020 0x0A = 0 ∧ oGet x 0x2020 0x0B = rs d 0x2010 0x02 ∧
        oGet x 0x8220 0x03 = rs d 0x8220 0x06 ∧ x.media = { d.media with timedOut := false } ∧
        OnlyObjs { d with media := x.media } x [okey 0x2000 1 0, okey 0x2000 2 0, okey 0x2020 0x0A 0, okey 0x2020 0x0B 0,
          okey 0x8220 3 0, okey 0x8220 0x0A 0, okey 0x8220 0x0B 0])) ∧
    (Alone s p (writeFrame h 0x2000 0x01 1 0) inst off d → mediaRuns s.dev = true → 2 ≤ mediaState d →
      (d.media.stopM = none → Reply (.mediaStop p h) s { oSet d 0x2000 0x01 0 with media := { d.media with stopReq := true } }
        p (writeFrame h 0x2000 0x01 1 0) 2 0 []) ∧
      (d.media.stopM ≠ none → Reply (.mediaStop p h) s (oSet d 0x2000 0x01 0) p (writeFrame h 0x2000 0x01 1 0) 2 0 [])) ∧
    (Alone s p (writeFrame h 0x2000 0x01 1 0) inst off d → mediaState s.dev = 1 → mediaState d = 1 → ∃ x,
      Reply (.mediaStartAbandon p h) s x p (writeFrame h 0x2000 0x01 1 0) 2 0 [] ∧ oGet x 0x2000 0x01 = 0 ∧ mediaState x = 0 ∧
        oGet x 0x8220 0x03 = rs d 0x8220 0x07 ∧ oGet x 0x8220 0x08 = 0 ∧ x.ctl = { d.ctl with hold := none } ∧
        OnlyObjs { d with ctl := x.ctl } x [okey 0x2000 1 0, okey 0x2000 2 0,
          okey 0x8220 3 0, okey 0x8220 8 0, okey 0x8220 0x0A 0, okey 0x8220 0x0B 0]) ∧
    (Alone s p (writeFrame h 0x2010 0x06 1 1) inst off d →
      let src := rs d 0x2010 0x02;
      let re (x : Dev) : Prop := Reply (.refReselect p h) s x p (writeFrame h 0x2010 0x06 1 1) 2 0 [];
      (srcActive d = src → re d) ∧
      (srcActive d ≠ src → mediaState d = 0 → re d) ∧
      (srcActive d ≠ src → mediaState d = 1 → re { oSet d 0x2020 0x0B src with media := { d.media with timedOut := false } }) ∧
      (srcActive d ≠ src → mediaState d = 2 ∨ (mediaState d = 3 ∧ src ≠ 0) → src ≠ 6 →
        re (oSet (oSet d 0x2020 0x0B src) 0x2020 0x0A 0)) ∧
      (srcActive d ≠ src → 2 ≤ mediaState d → mediaState d ≤ 3 → src = 6 →
        re (oSet (oSet (oSet d 0x2020 0x0B 6) 0x2020 0x0A 0) 0x2020 0x05 (nominalRate (rs d 0x2010 0x01)))) ∧
      (srcActive d ≠ src → mediaState d = 3 → src = 0 → re (oSet (oSet (oSet d 0x2020 0x0B 0) 0x2020 0x0A 0) 0x2000 0x02 2))) ∧
    (∀ v, Alone s p (writeFrame h 0x2020 0x0C 8 v) inst off d →
      Reply (.linkTimeSet p h v) s (oSet d 0x2020 0x01 (v % 2 ^ 64)) p (writeFrame h 0x2020 0x0C 8 v) 2 0 []) ∧
    (∀ v, Alone s p (writeFrame h 0x0100 0x03 8 v) inst off d → let n := v % 2 ^ 64;
      (mediaRuns d = true → n ≤ oGet d 0x0100 0x02 → Reply (.digestMark p h v) s d p (writeFrame h 0x0100 0x03 8 v) 2 4 []) ∧
      (mediaRuns d = false ∨ oGet d 0x0100 0x02 < n →
        Reply (.digestMark p h v) s (oSet (oSet d 0x0100 0x03 n) 0x0100 0x05 1) p (writeFrame h 0x0100 0x03 8 v) 2 0 [])) ∧
    (Alone s p (writeFrame h 0x0300 0x04 1 1) inst off d → off = oGet d 0x0300 0x01 ∧ ∃ x,
      Reply (.faultClear p h) s x p (writeFrame h 0x0300 0x04 1 1) 2 0 [] ∧
        x.faults = d.faults.filter (fun r => off < r.seq) ∧ oGet x 0x0300 0x02 = oldestSeq x.faults ∧
        OnlyObjs { d with faults := x.faults } x [okey 0x0300 2 0])

/-- 05 R152, 16 R468, R470, R480, R487, R493-R496: what the selectors and the lone writes of threads, counters and queues do. LEVEL moves a READY thread to
the tail of its new list; KICK makes an IDLE kernel thread READY; CNT_VALUE sets a counter above the buses', and zero
wakes who waits on it; FLUSH empties a queue but for what an unsealed transaction holds; TAKE removes the head item of a mailbox or I/O ring
but for one that such a transaction has read, and an ITEM write enters one or waits for room. The model's choices here are log entries 16, 38, 60. -/
def Obligations.WritesOfThreadsAndQueues : Prop :=
  ∀ (s : State) (p : Nat) (h : Hdr),
    (∀ (w : Sel) (v : Nat) (e e1 : Dev), let f := writeFrame h (selAt w).1 (selAt w).2 2 v;
      Heard s p 2 f e → Taken e p 2 f → hasRight e p 1 = true → takeQuota e p = some e1 →
      (∃ r, objAt f.idx f.sub = some r ∧ valueTest r 0 f.payload = none) →
      Reply (.windowSelect p h w v) s (modPort e1 p (fun x => match w with
        | .thread => { x with selThread := v % 65536 }
        | .counter => { x with selCounter := v % 65536 }
        | .queue => { x with selQueue := v % 65536 }
        | .region => { x with selRegion := v % 65536 }
        | .program => { x with selProgram := v % 65536 }
        | .voice => { x with selVoice := v % 65536 })) p f 2 0 []) ∧
    (∀ (v t off : Nat) (d : Dev), let f := writeFrame h 0x5801 0x05 1 v;
      Alone s p f t off d → let y := oSet d 0x5801 0x05 (v % 256) t;
        ((thr d t).st ≠ .ready → Reply (.levelWrite p h v) s (schedule y) p f 2 0 []) ∧
        ((thr d t).st = .ready → Reply (.levelWrite p h v) s (schedule (enterList (leaveLists y t) t)) p f 2 0 [])) ∧
    (∀ (t off : Nat) (d : Dev), let f := writeFrame h 0x5801 0x0E 1 1;
      Alone s p f t off d →
        ((thr d t).st = .idle → tAudio d t = false → Reply (.kick p h) s (schedule (makeReady d t)) p f 2 0 []) ∧
        ((thr d t).st ≠ .idle ∨ tAudio d t = true → Reply (.kick p h) s d p f 2 0 [])) ∧
    (∀ (v c off : Nat) (d : Dev), let f := writeFrame h 0x5800 0x10 2 v;
      Alone s p f c off d → 128 ≤ c ∧
        (v % 65536 ≠ 0 → Reply (.cntValue p h v) s (schedule (setCntRaw d c (v % 65536))) p f 2 0 []) ∧
        (v % 65536 = 0 → Reply (.cntValue p h v) s (schedule (releaseCnt (setCntRaw d c 0) c)) p f 2 0 [])) ∧
    (∀ (q off : Nat) (d : Dev), let f := writeFrame h 0x5A01 0x0B 1 1;
      Alone s p f q off d → qKind d q ≠ 1 ∧ qKind d q ≠ 2 ∧ Reply (.flush p h) s (resumeProducers (qFlush d q) q) p f 2 0 []) ∧
    (∀ (e e1 : Dev), let f := writeFrame h 0x5A01 0x0A 1 1;
      let q := (port e p).selQueue;
      Heard s p 2 f e → Taken e p 2 f → hasRight e p 1 = true → takeQuota e p = some e1 →
      (hostQueue e q = false → Reply (.take p h) s e1 p f 2 3 []) ∧
      (hostQueue e q = true → granted e p q = true → heldItems e q = 0 → Reply (.take p h) s (modQueue e1 q (fun x => { x with
        items := x.items.drop 1, doomed := x.doomed - 1 })) p f 2 0 []) ∧
      (hostQueue e q = true → granted e p q = true → 0 < heldItems e q → Reply (.take p h) s e1 p f 2 0 [])) ∧
    ∀ (v : BitVec 128) (e e1 : Dev),
      let f : Frame := ⟨h.node, h.off, h.seq, h.flags % 4 + 12, 0x5A01, 0x09, toLE 4 0 ++ toLE 16 v.toNat⟩;
      let q := (port e p).selQueue;
      Heard s p 4 f e → Taken e p 4 f → hasRight e p 1 = true → takeQuota e p = some e1 →
      (hostQueue e q = false → Reply (.itemWrite p h v) s e1 p f 4 3 []) ∧
      (hostQueue e q = true → granted e p q = true → (port e p).xfer = none →
        (0 < qRoom e q → Reply (.itemWrite p h v) s (qPush e1 q v) p f 4 0 []) ∧
        (qRoom e q = 0 → ∃ u, Answers (.itemWrite p h v) s u ∧ (port u.dev p).outq = [.item f q v] ∧
          (∀ r, queueOf u.dev r = queueOf e r) ∧ u.dev.links = e.links ∧ ∀ n, n + 4 ≠ p → uartOf u.dev n = uartOf e n))

/-- 12 R341, R353-R356, 17 R537, 19 R588, 21 R622, R643, 22 R663, R664, R667: what the lone writes of Tuber, the Links, the converters, the
timers, the UARTs and the spares do. The model's choices here are log entries 16, 33, 44. -/
def Obligations.WritesOfUnits : Prop :=
  ∀ (s : State) (p : Nat) (h : Hdr) (inst off : Nat) (d : Dev),
    (let f := writeFrame h 0x6801 0x0B 1 1;
      Alone s p f inst off d → d.tuber.verifying = none ∧ Reply (.verify p h) s { d with tuber := { d.tuber with
        verify := mput 0 d.tuber.verify inst 1, verifying := some inst } } p f 2 0 []) ∧
    (let f := writeFrame h 0x6830 0x03 1 1;
      Alone s p f inst off d → let r := oGet d 0x6830 0x01;
        moving d = false ∧ d.ver.stage = .idle ∧ ∃ x, Reply (.relocGo p h) s x p f 2 0 [] ∧ oGet x 0x6830 0x04 = 1 ∧
          oGet x 0x6830 0x05 = r ∧ oGet x 0x6830 0x06 = rgn d.ver.active r 0x02 ∧ oGet x 0x6830 0x07 = 0 ∧
          x.tuber = { d.tuber with moveTo := oGet d 0x6830 0x02, switched := false } ∧
          OnlyObjs { d with tuber := x.tuber } x [okey 0x6830 4 0, okey 0x6830 5 0, okey 0x6830 6 0, okey 0x6830 7 0]) ∧
    (let f := writeFrame h 0x6830 0x09 1 1;
      Alone s p f inst off d →
        (moving d = true → d.tuber.switched = false → Reply (.relocAbort p h) s (oSet d 0x6830 0x04 6) p f 2 0 []) ∧
        (moving d = false ∨ d.tuber.switched = true → Reply (.relocAbort p h) s d p f 2 0 [])) ∧
    (∀ l n, let f := writeFrame h (0x1140 + 8 * (l % 4) + n % 8) 0x05 1 1;
      let k := 0x1140 + 8 * (l % 4) + n % 8;
      Alone s p f inst off d → chainMode d (l % 4) = true ∧ ownNode d (l % 4) = 0 ∧
        (linkUp d (l % 4) = false ∨ nodeCount d (l % 4) ≤ n % 8 → Reply (.rejoin p h l n) s d p f 2 0 []) ∧
        (linkUp d (l % 4) = true → n % 8 < nodeCount d (l % 4) →
        Reply (.rejoin p h l n) s (modLink (oSet (resyncNode d (l % 4) (n % 8)) k 0x02 0) (l % 4) (fun x => { x with
          cmds := x.cmds ++ [(n % 8, 3)] })) p f 2 0 [])) ∧
    (∀ v, let f := writeFrame h 0x7420 0x05 1 (b2n v);
      let y := oSet d 0x7420 0x05 (b2n v);
      Alone s p f inst off d →
        (clearActive y = true → clearActive d = false → Reply (.cvClear p h v) s (clearAllCv y) p f 2 0 []) ∧
        (clearActive y = false ∨ clearActive d = true → Reply (.cvClear p h v) s y p f 2 0 [])) ∧
    (∀ n v, let f := writeFrame h (0x7C00 + n % 16) 0x04 4 v;
      Alone s p f inst off d → Reply (.tcCntWrite p h n v) s (modTimer (oSet d (0x7C00 + n % 16) 0x04 (v % 2 ^ 32)) (n % 16)
        (fun t => { t with acc := 0 })) p f 2 0 []) ∧
    (∀ n v, let f := writeFrame h (0x7C00 + n % 16) 0x05 4 v;
      Alone s p f inst off d → Reply (.tcCmpWrite p h n v) s (oSet d (0x7C00 + n % 16) 0x05 (v % 2 ^ 32)) p f 2 0 []) ∧
    (∀ n, let f := writeFrame h (0x7E00 + n % 4) 0x13 1 1;
      Alone s p f inst off d → Reply (.txResume p h n) s (txPump (oSet d (0x7E00 + n % 4) 0x12 0) (n % 4)) p f 2 0 []) ∧
    (let f := writeFrame h 0x8000 0x0B 1 1;
      Alone s p f inst off d → Reply (.restore p h) s { d with spares := { d.spares with restore := true } } p f 2 0 []) ∧
    (∀ u, let f := writeFrame h (0x8100 + u % 128) 0x06 1 1;
      Alone s p f inst off d → unitSt d (u % 128) = 0 ∧ Reply (.retire p h u) s { d with spares := { d.spares with
        retire := d.spares.retire.filter (· ≠ u % 128) ++ [u % 128] } } p f 2 0 []) ∧
    ∀ u, let f := writeFrame h (0x8100 + u % 128) 0x05 1 1;
      Alone s p f inst off d → (unitSt d (u % 128) = 2 ∨ unitSt d (u % 128) = 4) ∧
        Reply (.readmit p h u) s (startTest false d (u % 128)) p f 2 0 []

/-! ### Media time -/

/-- 02 R43, R44, R48-R52: the lock of a reference while the media runs sets MEDIA_LOCK; a lock timeout of a start counts in REF_LOSSES once and under
FALLBACK 1 turns the start to the crystal; the loss of a reference in use ends its lock, counts, and begins a holdover, which the return of the
reference ends, or under FALLBACK 1 the switch to the crystal. In every other state of the media these events change nothing.
The model's choices here are log entries 7, 24, 32. -/
def Obligations.ReferencesAreLostAndRegained : Prop :=
  ∀ s : State, Awake s →
    let d := s.dev
    let st := mediaState d
    let src := rs d 0x2010 0x02
    let fall := rs d 0x2010 0x05
    let active := oGet d 0x2020 0x0B
    let losses (e : Dev) : Prop := oGet e 0x2020 0x09 = min (topOf 0x2020 0x09) (oGet d 0x2020 0x09 + 1)
    (st = 2 → Makes .mediaLockDeclared s (oSet d 0x2020 0x0A 1)) ∧
    (st ≠ 1 → st ≠ 2 → Makes .mediaLockDeclared s d) ∧
    (st = 1 → src ≠ 0 → active = src → d.media.timedOut = false → ∃ e, Makes .lockTimeout s e ∧ losses e ∧
      e.media = { d.media with timedOut := true } ∧ oGet e 0x2020 0x0B = (if fall = 1 then 0 else active) ∧
      OnlyObjs { d with media := e.media, ports := e.ports } e [okey 0x2020 9 0, okey 0x2020 0x0B 0]) ∧
    (st ≠ 1 ∨ src = 0 ∨ active ≠ src ∨ d.media.timedOut = true → Makes .lockTimeout s d) ∧
    (st = 2 → active ≠ 0 → ∃ e, Makes .referenceLoss s e ∧ losses e ∧ mediaState e = 3 ∧ oGet e 0x2020 0x0A = 0 ∧
      OnlyObjs { d with ports := e.ports } e [okey 0x2020 9 0, okey 0x2020 0x0A 0, okey 0x2000 2 0]) ∧
    (st ≠ 2 ∨ active = 0 → Makes .referenceLoss s d) ∧
    (st = 3 → Makes .referenceReturn s (oSet d 0x2000 0x02 2)) ∧
    (st ≠ 3 → Makes .referenceReturn s d) ∧
    (st = 3 → fall = 1 → ∃ e, Makes .refFallbackSwitch s e ∧ mediaState e = 2 ∧ oGet e 0x2020 0x0A = 0 ∧ oGet e 0x2020 0x0B = 0 ∧
      OnlyObjs d e [okey 0x2020 0x0A 0, okey 0x2020 0x0B 0, okey 0x2000 2 0]) ∧
    (st ≠ 3 ∨ fall ≠ 1 → Makes .refFallbackSwitch s d)

/-- 02 R33, R35, R37, R43, R46, R55, 03 R79, R91-R93, 10 R282, R284, 16 R482, 17 R514: the order of what happens together at boundary 0, at each further boundary, at the boundaries m, m + 1 and m + 2 of a
stop, when a sample leaves, and at the end of a Link cycle. A boundary comes when every sample of the block before has left, and a
sample leaves only within its block. Boundary 0 sets MEDIA_STATE 2, the next epoch, and the media position, EFF, digest and void objects to their start.
At boundary k each output's codes are formed from the buses of k's parity, which are then zero; the codes of the enabled outputs are folded into the digest; a
commit into block k that is still due is a deadline miss. A window opens in the order of 10 R284: ended voices give up slots and lanes, waiting ones
take the lowest free lane of their position, events below the end of block k + 2 are taken in key order, every voice is computed to that end, and each position in service
has a transaction with the sums of its voices and the commit-adds that it declares.
The model's choices here are log entries 7, 15, 18, 30, 31, 40, 50, 51, 60, 69. -/
def Obligations.MediaTimeAdvances : Prop :=
  (∀ s : State, Awake s → mediaState s.dev = 1 →
    let d0 := startObjects ((rangeFrom 0 20).foldl dropStale (oSet s.dev 0x2020 0x0A 1))
    let d1 := applySealed (slackStart ((rangeFrom 0 16).foldl cascadeStop (startSaps (startAnalog (startParts d0)))))
    let d2 := restoreAll (retireAll (thermEval (foldBlock (formBlock d1 0) 0)))
    let d3 := (rangeFrom 0 8).foldl removeEvents (sweepQueues ((rangeFrom 0 20).foldl coreThreads d2))
    Makes .mediaLockDeclared s (boundaryRest (openAt d3 0 []) 0)) ∧
  (∀ d : Dev, let e := startObjects d
    mediaState e = 2 ∧ oGet e 0x2000 0x03 = (oGet d 0x2000 0x03 + 1) % 2 ^ 32 ∧ sixNow e = 0 ∧ oGet e 0x0100 0x01 = 0 ∧
      oGet e 0x0100 0x02 = 0 ∧ oGet e 0x0110 0x07 = 0 ∧ oGet e 0x0110 0x08 = 0 ∧ e.media = ⟨0, 0, false, none, false⟩ ∧
      e.time.anchor = none ∧ e.time.hist = []) ∧
  (∀ s : State, Awake s →
    let d := s.dev
    let k := d.media.block + 1
    let leaves (e : Dev) : Dev :=
      let a := abandonChecks e
      let b := applySealed (switchDue (oSet { a with media := { a.media with block := k } } 0x2000 0x04 (k * blockLen a)) k)
      foldBlock (formBlock (deadlineMiss b k) k) k
    let shut (e : Dev) : Dev :=
      let b := leaves e
      let off := (enabledParts e.ver.active).filter (fun p => !(enabledParts b.ver.active).contains p)
      let b := off.foldl disablePart b
      let c := fillLost (unitsAt (if b.media.stopM = some k then slackControl b k else b)) []
      let c := (threadsWhere c (fun _ x => x.releases ≠ [])).foldl (dropReleases k) (showFrames c)
      boundaryRest (schedule c) k
    (mediaRuns d = false ∨ d.media.next ≠ k * blockLen d → Makes .boundary s d) ∧
    (mediaRuns d = true → d.media.next = k * blockLen d →
      (d.media.stopM = none → d.media.stopReq = false →
        let b := leaves d
        let off := (enabledParts d.ver.active).filter (fun p => !(enabledParts b.ver.active).contains p)
        Makes .boundary s (boundaryRest (openAt (unitsAt (slackControl b k)) k off) k)) ∧
      (d.media.stopM = none → d.media.stopReq = true →
        Makes .boundary s (shut { d with media := { d.media with stopReq := false, stopM := some k } })) ∧
      (∀ m, d.media.stopM = some m → k < m + 2 → Makes .boundary s (shut d)) ∧
      (∀ m, d.media.stopM = some m → m + 2 ≤ k →
        let a := abandonChecks d
        Makes .boundary s (boundaryRest (fillLost (unitsAt (mediaEnd (applySealed { a with media := { d.media with block := k } }) k)) []) k)))) ∧
  (∀ (d : Dev) (k : Nat), 2 ≤ k →
    let e := formBlock d k
    let par := k % 2
    let code (id : Nat) (f : Nat → Int) : Prop := mget [] e.analog.codes id = (rangeFrom 0 (blockLen d)).map f
    let within (n : Nat) (x : Int) : Int := max (-(2 ^ (n - 1) : Nat)) (min ((2 ^ (n - 1) : Nat) - 1) x)
    (∀ o, o < 24 → code (anaId o) (fun i =>
      let term (c : Nat) : Int := let src := rs d (mixIdx o) c
        if src = 255 then 0 else busRead d src par i * sgn 32 (rs d (mixIdx o) (c + 1))
      let y := within 32 (rndConv (term 1 + term 3) 28 + sineGen d o (k * blockLen d + i) + sgn 32 (rs d (mixIdx o) 5))
      if o < 8 then y else min (rndConv (y + 2 ^ 31) 14) (2 ^ 18 - 1))) ∧
    (∀ n c, n < 4 → c < sapOuts d n → sapSends d n = true → sapF d n 0x0B ≠ 1 → code (sapId n c) (fun i =>
      let src := sapF d n (0x20 + c)
      leftWord (sapF d n 5) (sat (rndConv (if src = 255 then 0 else busRead d src par i) (32 - sapF d n 5)) (sapF d n 5)))) ∧
    (∀ l c, l < 4 → c ∈ linkChannels d l → code (linkId l c) (fun i =>
      let src := rs d (linkIdx l) (0x40 + c)
      wrapU 32 (if src < 128 then within 32 (busRead d src par i) else 0))) ∧
    (∀ ch i, i < 64 → busGet e ch par i = 0 ∧ busGet e ch (1 - par) i = busGet d ch (1 - par) i) ∧
    (∀ ch i, i < 64 → par < 2 → busRead d ch par i = if isPoisoned d (busAddr (blockLen d) ch par i) then 0 else busGet d ch par i) ∧
    e.alloc = d.alloc) ∧
  (∀ (d : Dev) (k : Nat), let e := foldBlock d k
    let fold (acc id : Nat) : Nat := rotl64 acc 7 ^^^ (id * 2 ^ 48 ||| (k % 65536) * 2 ^ 32 |||
      crc32c ((mget [] d.analog.codes id).flatMap (fun c => toLE 4 (wrapU 32 c))))
    let was := oGet d 0x0100 0x01
    let now := if k < 2 then was else (enabledIds d).foldl fold was
    let latches : Prop := oGet d 0x0100 0x05 = 1 ∧ oGet d 0x0100 0x03 = k
    oGet e 0x0100 0x01 = now ∧ oGet e 0x0100 0x02 = (if k < 2 then oGet d 0x0100 0x02 else k) ∧
      (latches → oGet e 0x0100 0x04 = now ∧ oGet e 0x0100 0x05 = 2) ∧
      (¬ latches → oGet e 0x0100 0x04 = oGet d 0x0100 0x04 ∧ oGet e 0x0100 0x05 = oGet d 0x0100 0x05) ∧
      { e with obj := d.obj, ports := d.ports } = d) ∧
  (∀ (d : Dev) (k : Nat), 2 ≤ k → let e := deadlineMiss d k
    (∀ x, x ∈ e.gourd.declared ↔ x ∈ d.gourd.declared ∧ k - 2 < x.window) ∧
      (commitsDue d (k - 2) = true → oGet e 0x0110 0x02 = min (topOf 0x0110 0x02) (oGet d 0x0110 0x02 + 1) ∧ bitOf (oGet e 0x0110 0x07) 0 = true) ∧
      (commitsDue d (k - 2) = false → e.obj = d.obj) ∧ e.gourd.bus = d.gourd.bus ∧ e.alloc = d.alloc) ∧
  (∀ (d : Dev) (k n : Nat), let e := boundaryRest d k
    let flags : Prop := oGet d (0x7400 + n) 0x05 = 1 ∨ oGet d (0x7400 + n) 0x06 = 1
    let who (v : Voice) : Nat × Nat × Nat := (v.serial, v.part, v.note)
    (n < 8 → (anaOn d n = false → oGet e (0x7400 + n) 0x04 = 0) ∧ (anaOn d n = true →
      (rs d (0x7400 + n) 0x03 = 1 → flags → oGet e (0x7400 + n) 0x04 = 2) ∧
      (rs d (0x7400 + n) 0x03 ≠ 1 ∨ ¬ flags → oGet e (0x7400 + n) 0x04 = 1))) ∧
    (mfind e.alloc.slots n).map who = (mfind d.alloc.slots n).map who ∧ (mfind e.alloc.lanes n).map who = (mfind d.alloc.lanes n).map who ∧
      e.gourd.bus = d.gourd.bus ∧ oGet e 0x0100 0x01 = oGet d 0x0100 0x01 ∧ oGet e 0x0100 0x02 = oGet d 0x0100 0x02) ∧
  (∀ (d : Dev) (k : Nat) (off : List Nat),
    let f := (k + 2) * blockLen d
    let fresh (l : AMap Voice) : AMap Voice := l.map (fun x => (x.1, freshUnder x.2))
    let a := showFrames d
    let a := { a with alloc := { a.alloc with slots := fresh a.alloc.slots, lanes := fresh a.alloc.lanes, podOut := [] } }
    let a := freeEnded (off.foldl disablePart a) k f
    let a := (waitingVoices a).foldl (leaveOrWait f) a
    let leave (d : Dev) (p : Nat) : Dev := ((slotsOfPart d p).filter (fun x => x.2.wait.isNone)).foldl (fun d x => leaveOrWait f d x.1) d
    let a := reduce (off.foldl leave a) k f
    let a := (deferrals a).foldl (retryOne ⟨k, f⟩) a
    let a := (sustainedParts a).foldl (fun d p => if pedalDown d p then d else pedalUp d p f) a
    let r := takeItems a (f + blockLen d)
    let a := applyEvents ⟨k, f⟩ r.2 0 { r.1 with alloc := { r.1.alloc with heldWas := heldParts r.1, shown := r.1.alloc.parts } }
    let due := podDecls a k
    let a := renderAll a (f + blockLen d)
    openAt d k off = openWindow (chargePeaks { a with alloc := { a.alloc with podTxns := a.alloc.podTxns ++ podTxnsOf a due k } }) k due) ∧
  (∀ (d : Dev) (k f n : Nat), (d.alloc.slots.map (·.1)).Pairwise (· < ·) → (d.alloc.lanes.map (·.1)).Pairwise (· < ·) →
    let e := freeEnded d k f
    let past (v : Voice) : Bool := v.lane.any (fun x => decide (x.1 + x.2 ≤ f))
    mfind e.alloc.slots n = (mfind d.alloc.slots n).filter (fun v => !viewEnded v k) ∧
      mfind e.alloc.lanes n = (mfind d.alloc.lanes n).filter (fun v => !(past v || viewEnded v k)) ∧
      ∀ v, mfind d.alloc.slots n = some v → viewEnded v k = true → mfind e.alloc.ended n = some v) ∧
  (∀ (d : Dev) (s n : Nat) (v : Voice), mfind d.alloc.slots n = some v →
    let e := leaveOrWait s d n
    let full (j : Nat) : Prop := (mfind d.alloc.lanes j).isSome = true
    (∀ m, m / 8 = n / 32 → ¬ full m → (∀ j, j < m → j / 8 = n / 32 → full j) →
      mfind e.alloc.slots n = none ∧ ∃ y, mfind e.alloc.lanes m = some y ∧ y.serial = v.serial ∧ y.part = v.part ∧ y.note = v.note ∧
        y.lane = some (s, rs d 0x4C10 0x01) ∧ y.wait = none ∧ ∀ j, j ≠ m → mfind e.alloc.lanes j = mfind d.alloc.lanes j) ∧
    ((∀ j, j / 8 = n / 32 → full j) → e.alloc.lanes = d.alloc.lanes ∧ ∃ y, mfind e.alloc.slots n = some y ∧ y.serial = v.serial ∧
      y.wait = some (v.wait.getD s)) ∧
    ∀ j, j ≠ n → mfind e.alloc.slots j = mfind d.alloc.slots j) ∧
  (∀ (d : Dev) (t : Nat), let r := takeItems d t
    let key (x : EvItem) : Nat := (x.six * 16 + x.cls) * 65536 + x.src
    (∀ q, q < 256 → (queueOf r.1 q).items = (queueOf d q).items.filter (fun v => decide (t ≤ evSix d v))) ∧
      (∀ q, 256 ≤ q → queueOf r.1 q = queueOf d q) ∧ (∀ i ∈ r.2, i.six < t) ∧ r.2.Pairwise (fun a b => key a ≤ key b) ∧
      r.1.alloc.rootEvents = d.alloc.rootEvents.filter (fun x => decide (t ≤ x.six))) ∧
  (∀ (d : Dev) (t n : Nat), let e := renderAll d t
    let who (v : Voice) : Nat × Nat × Nat := (v.serial, v.part, v.note)
    (mfind e.alloc.slots n).map who = (mfind d.alloc.slots n).map who ∧ (mfind e.alloc.lanes n).map who = (mfind d.alloc.lanes n).map who ∧
      e.alloc.parts = d.alloc.parts ∧ e.gourd.bus = d.gourd.bus) ∧
  (∀ (d : Dev) (k : Nat),
    let here (o : Nat) (v : Voice) : Prop := (∃ n, (n, v) ∈ d.alloc.slots ∧ n / 32 = o) ∨ ∃ n, (n, v) ∈ d.alloc.lanes ∧ n / 8 = o
    let sum (o c i : Nat) : Int := wrapS 64 (((termsOf d.alloc.podOut o).filter (fun x => x.1 % 8192 = 64 * c + i)).map (·.2)).sum
    (∀ x, x ∈ podDecls d k ↔ x.window = k ∧ x.pod = true ∧ posIn d x.name = true ∧
      ∃ v, here x.name v ∧ x.ch ∈ sendChannels d (podRecord d v.program) v.part) ∧
    let l := podTxnsOf d (podDecls d k) k
    (∀ o ∈ positionsIn d, (∃ v, here o v) → ∃ x ∈ l, x.position = o) ∧
    ∀ x ∈ l, x.window = k ∧ x.held = none ∧ x.position ∈ positionsIn d ∧
      ∀ c v, (c, v) ∈ x.adds → (⟨k, true, x.position, c⟩ : Decl) ∈ podDecls d k ∧ v = (rangeFrom 0 (blockLen d)).map (sum x.position c)) ∧
  (∀ s : State, Awake s →
    let d := s.dev
    let n := d.media.next
    (mediaRuns d = false ∨ (d.media.block + 1) * blockLen d ≤ n → Makes .sampleEgress s d) ∧
    (mediaRuns d = true → n < (d.media.block + 1) * blockLen d →
      let e := oSet { d with media := { d.media with next := n + 1 } } 0x2000 0x04 n
      let e := (rangeFrom 0 4).foldl sapSample ((rangeFrom 0 4).foldl (sapEgress n) e)
      Makes .sampleEgress s (egressAnalog ((rangeFrom 0 4).foldl (linkEgress n) e) n))) ∧
  ∀ (s : State) (x : CycleEnd), Awake s →
    let d := s.dev
    let marked : Prop := rs d 0x2010 0x07 ≠ 0 ∧ d.time.sinceMark = 0
    let t : Dev := { (if marked then d else oSet d 0x2020 0x01 ((linkTime d + 125000) % 2 ^ 64)) with
      cycles := d.cycles + 1, time := { d.time with sinceMark := d.time.sinceMark + 1 } }
    let t := advanceTick t (cycleTick t)
    let a := if mediaRuns t then t else evalNotes false t
    let b := (rangeFrom 0 8).foldl refillQuota (resolveLive a)
    let c := if rs b 0x2010 0x07 = 0 then oSet (latchAnchor b (linkTime b) x.frac (oGet b 0x2020 0x0D == 1)) 0x2020 0x0D 0 else b
    let n := (rangeFrom 0 8).foldl (fun d p => showFlow (pump d p []) p) (gourdErrs (gourdConflicts c x.conflicts) x.met)
    let l := (rangeFrom 0 4).foldl resumeMidi ((rangeFrom 0 4).foldl (linkCycle x.ports) n)
    Makes (.linkCycleEnd x) s (afterAnswers (dmaPump ((rangeFrom 0 4).foldl txPump l)))

/-- 02 R37, 03 R74-R77, R80, R83, 08 R234, 10 R292, R297, 22 R650, R651: a Pod's seal lands its commit-adds, the status words of its voices and what it read of its
voice event queues (its checkpoint records at the next boundary), is held while its cross-check is to come, and
is discarded after its read; a core's waits for room in its queues, is discarded when late, and else lands. A check's result releases the held seal, or voids the block
and fails the Pod. A deferral that has waited MAX_WAIT blocks is refused, a segment whose count reached its length completes, a lane whose ramp has
ended gives up its voice and its streams. The model's choices here are log entries 7, 15, 33, 38, 51. -/
def Obligations.SealsChecksAndVoiceEvents : Prop :=
  ∀ s : State, Awake s →
    let d := s.dev
    (∀ (u : Nat) (ticks : Int) (o : Nat) (x : PodTxn) (r : List PodTxn), isPod u = true → positionOf d u = some o →
      (podWork d o).filter (fun y => y.held.isNone) = x :: r → let e := dropPodTxn d x;
      (x.check = true → d.media.block = x.window → Makes (.seal u ticks) s (handOver { d with alloc := { d.alloc with
        podTxns := d.alloc.podTxns.map (fun y => if y.window = x.window ∧ y.position = o then
          { y with held := some (slackOf d ticks) } else y) } })) ∧
      (x.check = false ∨ d.media.block ≠ x.window → x.window + 2 ≤ d.media.block → let y := takeoverSealed e u
        Makes (.seal u ticks) s (handOver y) ∧ y.gourd = d.gourd ∧ y.alloc.slots = d.alloc.slots ∧ y.alloc.lanes = d.alloc.lanes ∧
          (x.reads = [] → y.stalk = d.stalk)) ∧
      (x.check = false ∨ d.media.block ≠ x.window → d.media.block < x.window + 2 →
        let w := landStatus x.status (x.reads.foldl (fun d y => voiceRetire d y.1 y.2) e)
        let late := if w.media.block = x.window + 1 then bump w 0x2040 0x04 else w
        let g := noteRecord (x.adds.foldl (fun d a => landAdd d x.window true x.position a.1 a.2) late) x.position x.window
        Makes (.seal u ticks) s (handOver (schedule (takeoverSealed (putSlack g x.window u (slackOf d ticks)) u))))) ∧
    (∀ (n : Nat) (ticks : Int) (x : Txn) (r : List Txn), n < 20 → (coreOf d n).ended = x :: r →
      let pop := modCore d n (fun c => { c with ended := r });
      (x.window + 2 ≤ d.media.block ∨ mediaRuns d = false →
        Makes (.seal (0x40 + n) ticks) s (handOver (schedule (releaseFlow (takeoverSealed pop (0x40 + n)) x.thread)))) ∧
      (d.media.block < x.window + 2 → mediaRuns d = true →
        (fullFor d x ≠ [] → Makes (.seal (0x40 + n) ticks) s (handOver ((fullFor d x).foldl fullWait d))) ∧
        (fullFor d x = [] →
          let late := if d.media.block = x.window + 1 then bump pop 0x2040 0x04 else pop
          let g := takeoverSealed (putSlack (landTxn late x) x.window (0x40 + n) (slackOf late ticks)) (0x40 + n)
          Makes (.seal (0x40 + n) ticks) s (handOver (schedule (releaseFlow g x.thread)))))) ∧
    (∀ (u : Nat) (equal : Bool) (o : Nat) (x : PodTxn), positionOf d u = some o →
      (podWork d o).find? (fun x => x.check && x.held.isSome) = some x →
      (x.window ≠ d.media.block → Makes (.crossCheckResult u equal) s d) ∧
      (x.window = d.media.block → equal = true →
        Makes (.crossCheckResult u equal) s (landPod (bump d 0x8000 0x06) x u (x.held.getD 0))) ∧
      (x.window = d.media.block → equal = false → Makes (.crossCheckResult u equal) s
        (podFail (voidAt (bump (bump d 0x8000 0x06) 0x8000 0x07) 0 (x.window + 1)) u 0x02
          ((checkedSlot d o x.window).getD 0) (checkerOf d o)))) ∧
    (∀ p, mediaRuns d = true → ((deferrals d).filter (fun x => x.1 = p)).all
        (fun x => decide (d.media.block < x.2.window + rs d 0x4C00 0x02)) = true → Makes (.deferralTimeout p) s d) ∧
    (∀ p x, mediaRuns d = true → (deferrals d).filter (fun x => x.1 = p) = [x] → x.2.window + rs d 0x4C00 0x02 ≤ d.media.block →
      Makes (.deferralTimeout p) s (refuseNote (modPart d p (fun ps => { ps with deferred := ps.deferred.erase x.2 }))
        (d.media.block + 2))) ∧
    (∀ (n e : Nat) (v : Voice) (x : Env), mfind d.alloc.slots n = some v → v.envs[e]? = some x →
      (x.st = .run → x.pendStart = false → 0 < x.len → x.len ≤ x.n →
        let y := envFinish v.lat e (timeScale v.held e) x;
        Makes (.envSegmentEnd n e) s { d with alloc := { d.alloc with
          slots := mins d.alloc.slots n { v with envs := setNth v.envs e y } } }) ∧
      (x.st ≠ .run ∨ x.n < x.len → Makes (.envSegmentEnd n e) s d)) ∧
    ∀ (n a len : Nat) (v : Voice), mfind d.alloc.lanes n = some v → v.lane = some (a, len) → mediaRuns d = true →
      (a + len ≤ (d.media.block + 2) * blockLen d → Makes (.fadeLaneEnd n) s { d with
        alloc := { d.alloc with lanes := mdel d.alloc.lanes n }
        tuber := { d.tuber with streams := d.tuber.streams.filter (fun x => x.serial != v.serial) } }) ∧
      ((d.media.block + 2) * blockLen d < a + len → Makes (.fadeLaneEnd n) s d)

/-- 14 R432, 22 R649, R657, R658, R660, R661, R664-R666, 23 R695-R699: a unit in service that holds work and makes no progress fails: a spare of its quadrant takes over, or its position or core
is lost, a Pod also in capacity mode (01 R16) and a core also where its constant block meets an error. The record of a lost position waits for its VOICES_LOST. A self-test that passes makes the unit a spare, one that fails puts it out of use, each with a record.
The periodic test starts on every spare. A thermal evaluation takes the four temperatures, at the next boundary while the media runs.
The model's choices here are log entries 7, 15, 33, 34, 35, 37, 57. -/
def Obligations.UnitsAndTemperatures : Prop :=
  ∀ s : State, Awake s →
    let d := s.dev
    (∀ u o, isPod u = true → unitSt d u = 0 → positionOf d u = some o → podBusy d u = true →
      let f := takeoverSealed d u;
      (∀ x, d.spares.taking.contains u = false → rs d 0x4C10 0x02 ≠ 1 → spareIn d true (quadOf u) = some x → Makes (.watchdog u) s
        (addFault (bump (podTakeover f o u x) 0x8000 0x05) 0x01 u 1 x 0 0 0)) ∧
      (d.spares.taking.contains u = true ∨ rs d 0x4C10 0x02 = 1 ∨ spareIn d true (quadOf u) = none →
        let l := holdFault (schedule (podLoss (setServe (setUnit f u 2) o none) o)) (some o) (draftFault f 0x01 u 2 0xFF 0 0 0)
        Makes (.watchdog u) s (if mediaRuns l then l else fillLost l []))) ∧
    (∀ n, n < 20 → unitSt d (0x40 + n) = 0 → coreBusy d n = true →
      let u := 0x40 + n
      let f := takeoverSealed d u;
      (∀ x, d.spares.taking.contains u = false → constBad d n = false → spareIn d false (quadOf u) = some x → Makes (.watchdog u) s
        (addFault (coreTakeover f n (x - 0x40)) 0x01 u 1 x 0 0 0)) ∧
      (d.spares.taking.contains u = true ∨ constBad d n = true ∨ spareIn d false (quadOf u) = none → Makes (.watchdog u) s
        (addFault (coreLoss f n) 0x01 u 2 0xFF 0 0 0))) ∧
    (∀ u, unitSt d u ≠ 0 → Makes (.watchdog u) s d) ∧
    (∀ u pass x, d.spares.tests.find? (fun x => x.1 = u) = some x → ∃ e, Makes (.selfTestDone u pass) s e ∧
      unitSt e u = (if pass then 1 else 4) ∧ e.spares = { d.spares with tests := d.spares.tests.filter (fun y => y.1 ≠ u) } ∧
      (∀ v, v ≠ u → unitSt e v = unitSt d v) ∧
      (∃ y ∈ e.faults, y.kind = 0x0A ∧ y.unit = u ∧ y.action = (if pass then 7 else 8) ∧
        y.detail = (if pass then 0 else 1))) ∧
    (∀ u pass, d.spares.tests.find? (fun x => x.1 = u) = none → Makes (.selfTestDone u pass) s d) ∧
    (rs d 0x8000 0x0C = 0 → Makes .periodicSpareTest s d) ∧
    (rs d 0x8000 0x0C ≠ 0 → ∃ e, Makes .periodicSpareTest s e ∧
      (∀ u, unitSt e u = if u < 0x54 ∧ isUnit u = true ∧ unitSt d u = 1 then 3 else unitSt d u) ∧
      (∀ x, x ∈ e.spares.tests ↔ x ∈ d.spares.tests ∨ (x.2 = true ∧ x.1 < 0x54 ∧ isUnit x.1 = true ∧ unitSt d x.1 = 1))) ∧
    ∀ t0 t1 t2 t3 : Int,
      let c : Dev := { d with therm := { d.therm with conv := [t0, t1, t2, t3] } };
      (mediaRuns d = true → Makes (.thermalEval t0 t1 t2 t3) s c) ∧
      (mediaRuns d = false → Makes (.thermalEval t0 t1 t2 t3) s (fillLost (thermEval c) []) ∧ (thermEval c).therm.k = d.therm.k + 1 ∧
        (thermEval c).therm.conv = [t0, t1, t2, t3])

/-! ### Links -/

/-- 17 R508-R510, R536, R537, R539-R543, R549: training starts on an enabled port that is down and restarts at its timeout; a port that trained comes up on two
lanes or one with a session and the credits of the latest header; the failure of one of two lanes falls back to the other with a record, that of a lane
not in use does nothing but end its lock; a port dropped from its chain does the same in LINK_STATE 6; the failed lane's frames go out again after the realignment, in slots of their kind and as far as credits go, and the lane returns
with a record, and not before the next own cycle is the 8th or later since the partner showed it; the loss of the last lane takes the port down. The nodes of a chain join while it trains and are active when it comes up
(R549); a chain's commands mute a node of it, drop it, or let it rejoin, and a number beyond the chain names none. The model's choices here are log entries 7, 61, 69. -/
def Obligations.LinkPortsComeAndGo : Prop :=
  ∀ (s : State) (l : Nat), Awake s → l < 4 →
    let d := s.dev
    let st := linkState d l
    let x := linkOf d l
    let ix := 0x1100 + 0x10 * l
    let nodes := if chainMode d l = true then lf d l 4 else 0
    let trains (i : Instr) : Prop := ∃ e, Makes i s e ∧ linkState e l = 1 ∧ oGet e ix 0x0A = 0 ∧
      linkOf e l = { x with trained := false, words := [], used := [], rxCycle := 0, mapCrc := none } ∧
      (∀ q, q ≠ l → linkOf e q = linkOf d q) ∧ (∀ n, n < 8 → oGet e (0x1140 + 8 * l + n) 0x01 = (if n < nodes then 1 else 0)) ∧
      OnlyObjs { d with links := e.links } e
        (okey ix 0x09 0 :: okey ix 0x0A 0 :: (rangeFrom 0 8).map (fun n => okey (0x1140 + 8 * l + n) 0x01 0))
    (lf d l 1 = 1 → st = 0 → trains (.linkTrainingStart l)) ∧
    (lf d l 1 ≠ 1 ∨ st ≠ 0 → Makes (.linkTrainingStart l) s d) ∧
    (st = 1 → trains (.trainingTimeout l)) ∧
    (st ≠ 1 → Makes (.trainingTimeout l) s d) ∧
    (∀ (lanes : Nat) (two : Bool) (t : Trip), st = 1 →
      let both : Prop := lanes % 4 = 3 ∧ lf d l 5 = 2 ∧ two = true
      ∃ e, Makes (.linkUp l lanes two t) s e ∧ (port e l).session = true ∧ (port e l).outq = [] ∧ (port e l).store = [] ∧
        (both → linkState e l = 2 ∧ oGet e ix 0x0A = 3 ∧ (linkOf e l).failed = none) ∧
        (¬ both → linkState e l = 3 ∧ oGet e ix 0x0A = (if lanes % 2 = 1 then 1 else 2) ∧
          (linkOf e l).failed = (if lf d l 5 = 2 ∧ two = true then some (if lanes % 2 = 1 then 1 else 0) else none)) ∧
        oGet e ix 0x0B = min (2 ^ 32 - 1) (320 * ((t.trip - 10 * t.turn) / 2)) ∧ (linkOf e l).wait = [] ∧
        (linkOf e l).words = x.words ∧ (linkOf e l).used = x.used ∧
        (∀ n, n < 8 → oGet e (0x1140 + 8 * l + n) 0x01 = (if n < nodes then 2 else 0)) ∧
        (∀ q, q ≠ l → port e q = port d q ∧ linkOf e q = linkOf d q)) ∧
    (∀ (lanes : Nat) (two : Bool) (t : Trip), st ≠ 1 → Makes (.linkUp l lanes two t) s d) ∧
    (∀ lane, lane < 2 → twoLanes d l = true → ∃ e, Makes (.laneFail l lane) s e ∧ linkState e l = (if st = 2 then 4 else 6) ∧
      oGet e ix 0x0A = 2 - lane ∧ oGet e ix 0x0E = min (topOf ix 0x0E) (oGet d ix 0x0E + 1) ∧
      linkOf e l = { x with failed := some lane, lock := 0, both := none, two := false } ∧
      (∀ p, port e p = port d p) ∧ ∃ y ∈ e.faults, y.kind = 5 ∧ y.unit = 0xC0 + l ∧ y.action = 3 ∧ y.detail = lane) ∧
    (∀ lane, lane < 2 → receives d l = true → twoLanes d l = false → laneOf d l 0 = lane → ∃ e, Makes (.laneFail l lane) s e ∧ linkState e l = 0 ∧
      (port e l).session = false ∧ oGet e ix 0x0A = 0 ∧ oGet e ix 0x0D = min (topOf ix 0x0D) (oGet d ix 0x0D + 1)) ∧
    (∀ lane, lane < 2 → receives d l = true → twoLanes d l = false → laneOf d l 0 ≠ lane → x.failed = some lane →
      Makes (.laneFail l lane) s (oSet (modLink d l (fun x => { x with lock := 0 })) ix 0x0A (2 - lane))) ∧
    (∀ lane, lane < 2 → twoLanes d l = false → receives d l = false ∨ (laneOf d l 0 ≠ lane ∧ x.failed ≠ some lane) →
      Makes (.laneFail l lane) s d) ∧
    (∀ b, lf d l 5 = 2 → oneLane d l = true → x.failed.isSome = true →
      (linkOf (lockStep d l b) l).lock = (if b = true then x.lock + 1 else 0) ∧
      (b = true → 63 ≤ x.lock → oGet (lockStep d l b) ix 0x0A = 3) ∧ (b = true → x.lock < 63 → oGet (lockStep d l b) ix 0x0A = oGet d ix 0x0A) ∧
      (∀ f, b = false → x.failed = some f → oGet (lockStep d l b) ix 0x0A = 2 - f)) ∧
    (∀ f, x.failed = some f → st = 4 →
      let lost := (x.sent.filter (fun y => y.lane = f)).map (·.frame)
      Makes (.laneRealigned l) s (modLink (setLinkState d l 3) l (fun x => { x with
        sent := x.sent.filter (fun y => y.lane ≠ f)
        again := x.again ++ (lost.filter isIso ++ lost.filter (fun y => !isIso y)) }))) ∧
    (∀ slot y r, x.again = y :: r → y.kind = .service → isoOwed d l = false → creditLeft d l y.node 0 ≠ 0 → ∃ e, sendMsg d l slot y.node = e ∧
      (linkOf e l).again = r ∧ (linkOf e l).wait = x.wait ∧ creditLeft e l y.node 0 + 1 = creditLeft d l y.node 0 ∧
      (linkOf e l).sent = x.sent ++ [⟨oGet d ix 0x0C, laneOf d l slot, y⟩] ∧
      oGet e ix 0x15 = min (topOf ix 0x15) (oGet d ix 0x15 + 1)) ∧
    (∀ (slot : Nat) (y : TxFrame), repeatsFor d l y.node = [y] → creditLeft d l y.node (creditKind y) = 0 → sendMsg d l slot y.node = d) ∧
    (∀ f n, x.failed = some f → oneLane d l = true → lf d l 5 = 2 → x.both = some n → 7 ≤ n →
      ∃ e, Makes (.laneRestored l) s e ∧ linkState e l = (if st = 3 then 2 else 6) ∧ twoLanes e l = true ∧
      oGet e ix 0x0A = oGet d ix 0x0A ∧ linkOf e l = { x with failed := none, both := none, two := true } ∧
      ∃ y ∈ e.faults, y.kind = 6 ∧ y.unit = 0xC0 + l ∧ y.action = 4 ∧ y.detail = f) ∧
    (x.both = none ∨ lf d l 5 ≠ 2 ∨ oneLane d l = false → Makes (.laneRestored l) s d) ∧
    (∀ n, x.both = some n → n < 7 → Makes (.laneRestored l) s d) ∧
    (x.failed = none → Makes (.laneRealigned l) s d ∧ Makes (.laneRestored l) s d) ∧
    (linkUp d l = true ∨ st = 6 → ∃ e, Makes (.portDown l) s e ∧ linkState e l = 0 ∧ (port e l).session = false ∧
      linkOf e l = Link.zero ∧ oGet e ix 0x0A = 0 ∧ oGet e ix 0x0D = min (topOf ix 0x0D) (oGet d ix 0x0D + 1) ∧
      (∀ n, n < 8 → oGet e (0x1140 + 8 * l + n) 0x01 = 0) ∧ (rs d 0x2010 7 = l + 1 → oGet e 0x2020 0x0D = 1)) ∧
    (linkUp d l = false → st ≠ 6 → Makes (.portDown l) s d) ∧
    ∀ n, receives d l = true → chainMode d l = true →
      let nx := 0x1140 + 8 * l + n % 8
      (nodeCount d l ≤ n % 8 → ∀ i ∈ [Instr.chainResync l n, .chainDrop l n, .chainRejoinCmd l n], Makes i s d) ∧
      (n % 8 < nodeCount d l →
      (n % 8 ≠ ownNode d l → Makes (.chainResync l n) s (oSet d nx 0x01 3)) ∧
      (n % 8 = ownNode d l → Makes (.chainResync l n) s (modLink (oSet d nx 0x01 3) l (fun x => { x with mute := 2, ratios := [] }))) ∧
      (n % 8 ≠ ownNode d l → Makes (.chainDrop l n) s (bump (oSet d nx 0x01 4) nx 0x06)) ∧
      (n % 8 = ownNode d l → linkUp d l = true → ∃ e, Makes (.chainDrop l n) s e ∧ linkState e l = 6 ∧
        (port e l).session = false ∧ oGet e nx 0x01 = 4 ∧ twoLanes e l = decide (st = 2)) ∧
      (n % 8 ≠ ownNode d l → Makes (.chainRejoinCmd l n) s (oSet (oSet d nx 0x01 3) nx 0x02 0)) ∧
      (n % 8 = ownNode d l → st = 6 → ∃ e, Makes (.chainRejoinCmd l n) s e ∧ (port e l).session = true ∧
        linkState e l = (if x.two = true then 2 else 3) ∧ oGet e nx 0x02 = 0))

/-- 02 R55, R62, 17 R507, R518, R519, R522, R526, R527, R529, R533, R534, R538: a marker counts its code errors and, on a chain node, gives a ratio estimate. Frames
and headers whose CRC fails only count, and the header's cycle with them. A header gives its node words, in training too, and, on a port that is no chain, the acknowledgement of
what was sent and of both lanes; a chain node passes it on in training too. A time master's marker sets Link time, latches an anchor and ends the holdover. A data frame enters its items in the ring it
names, once for each sequence number, and one beyond its credit or room is an overrun; an isochronous frame enters its stream's ring, or is dropped and counted. A frame that
fails the guard test is dropped; else a chain forwards it, a copy taken or not, and its owner strips it. The model's choices here are log entries 7, 14, 45, 51, 61. -/
def Obligations.LinkFramesAreTaken : Prop :=
  ∀ (s : State) (l : Nat), Awake s →
    let d := s.dev
    let ix := 0x1100 + 0x10 * l
    let x := linkOf d l
    let follows : Prop := chainMode d l = true ∧ isHead d l = false
    (∀ (h : List Byte) (m : Marker), hears d l = false → Makes (.cycleHeaderRx l h m) s d) ∧
    (∀ (h : List Byte) (m : Marker), hears d l = true → ∃ met : Dev,
      (¬ follows → met = (if m.codeErrors = 0 then d else bump d ix 0x0F m.codeErrors)) ∧
      (follows → met = modLink (if m.codeErrors = 0 then d else bump d ix 0x0F m.codeErrors) l (fun x => { x with
        ratios := (m.ratio :: x.ratios).take 2 })) ∧
      (receives d l = false → crcOk h 64 = true → follows → ∃ e, Makes (.cycleHeaderRx l h m) s e ∧
        oGet e ix 0x0C = fieldAt h 8 4 ∧ linkState e l = 1) ∧
      (crcOk h 64 = false →
        let lost := modLink (bump met ix 0x1B) l (fun x => { x with words := [], used := [], rxCycle := (x.rxCycle + 1) % 2 ^ 32 })
        let t := modLink lost l (fun x => { x with old := none, both := x.both.map (· + 1) })
        let own := 0x1140 + 8 * l + ownNode d l;
        (receives d l = false ∨ ¬ follows → Makes (.cycleHeaderRx l h m) s lost) ∧
        (receives d l = true → follows → x.mute ≠ 0 → Makes (.cycleHeaderRx l h m) s
          (sendSlots (modLink t l (fun y => { y with mute := x.mute - 1 })) l true m.late)) ∧
        (receives d l = true → follows → x.mute = 0 → Makes (.cycleHeaderRx l h m) s
          (sendSlots (if oGet d own 0x01 = 3 then oSet t own 0x01 2 else t) l false m.late))) ∧
      (crcOk h 64 = true → chainMode d l = false →
      let shows : Prop := receives d l = true ∧ oneLane d l = true ∧ lf d l 5 = 2 ∧ x.failed.isSome = true ∧
        fieldAt h 17 1 % 4 = 3 ∧ x.both = none
      let ack := fieldAt h 12 4
      let g := modLink met l (fun x => { x with
          words := wordsIn h, used := [], rxCycle := fieldAt h 8 4, mapCrc := none
          both := if shows then some 0 else x.both
          sent := if receives d l then x.sent.filter (fun f => ¬ ((ack + 2 ^ 32 - f.cycle) % 2 ^ 32 < 2 ^ 31)) else x.sent });
      (rs d 0x2010 7 ≠ l + 1 ∨ bitOf (fieldAt h 16 1) 0 = false → Makes (.cycleHeaderRx l h m) s g) ∧
      (rs d 0x2010 7 = l + 1 → bitOf (fieldAt h 16 1) 0 = true →
        let t := (fieldAt h 0 8 + psToNs (oGet d ix 0x0B)) % 2 ^ 64
        let a := latchAnchor (setLinkTime g t) t m.frac (oGet d 0x2020 0x0D == 1)
        Makes (.cycleHeaderRx l h m) s (oSet { a with time := { a.time with sinceMark := 0 } } 0x2020 0x0D 0))) ∧
      (crcOk h 64 = true → chainMode d l = true →
        ∃ e, Makes (.cycleHeaderRx l h m) s e ∧ (linkOf e l).rxCycle = fieldAt h 8 4 ∧
          (linkOf e l).mapCrc = some (fieldAt h 20 4) ∧ (follows → oGet e ix 0x0C = fieldAt h 8 4))) ∧
    (∀ (node : Nat) (off : Int) (b : List Byte), receives d l = false →
      Makes (.dataFrameRx l node off b) s d ∧ Makes (.isoFrameRx l node off b) s d ∧
        Makes (.chainFrameForward l node off b) s d) ∧
    (∀ (node : Nat) (off : Int) (b : List Byte), receives d l = true → chainMode d l = true →
      let g := guardTest d l node off
      let on := if node = ownNode d l then g.2 else modLink g.2 l (fun x => { x with forwarded := x.forwarded ++ [b] });
      (g.1 = false → Makes (.dataFrameRx l node off b) s g.2 ∧ Makes (.isoFrameRx l node off b) s g.2) ∧
      (g.1 = true → crcOk b 76 = false →
        Makes (.dataFrameRx l node off b) s (bump on ix 0x1B) ∧ Makes (.isoFrameRx l node off b) s (bump on ix 0x1B)) ∧
      (g.1 = true → crcOk b 76 = true →
        Makes (.dataFrameRx l node off b) s (takeData on l node b) ∧ Makes (.isoFrameRx l node off b) s (takeIso on l node b))) ∧
    (∀ (node : Nat) (off : Int) (b : List Byte), receives d l = true → chainMode d l = false → crcOk b 76 = false →
      Makes (.dataFrameRx l node off b) s (bump d ix 0x1B) ∧ Makes (.isoFrameRx l node off b) s (bump d ix 0x1B)) ∧
    (∀ (node : Nat) (off : Int) (b : List Byte), receives d l = true → chainMode d l = false → crcOk b 76 = true →
      let q := fieldAt b 0 2 % 4096
      let n := fieldAt b 2 2
      let dup : Prop := (mget [] x.dseqIn q).contains n = true
      (ringOf d l q = none → Makes (.dataFrameRx l node off b) s (creditOverrun d l 0)) ∧
      ∀ k, ringOf d l q = some k →
        (dup → Makes (.dataFrameRx l node off b) s d) ∧
        (¬ dup → nth 0 x.adv (1 + k) ≤ mget 0 x.got (4 * node + (1 + k)) →
          Makes (.dataFrameRx l node off b) s (creditOverrun d l 0)) ∧
        (¬ dup → mget 0 x.got (4 * node + (1 + k)) < nth 0 x.adv (1 + k) →
          let c := modLink d l (fun x => { x with got := mput 0 x.got (4 * node + (1 + k)) (mget 0 x.got (4 * node + (1 + k)) + 1) })
          (qRoom d q < (itemsIn b).length → Makes (.dataFrameRx l node off b) s (creditOverrun c l 0)) ∧
          ((itemsIn b).length ≤ qRoom d q → Makes (.dataFrameRx l node off b) s (qPushAll (modLink c l (fun x => { x with
            dseqIn := mput [] x.dseqIn q (lastN 64 (mget [] x.dseqIn q ++ [n])) })) q (itemsIn b))))) ∧
    (∀ (node : Nat) (off : Int) (b : List Byte), receives d l = true → chainMode d l = false → crcOk b 76 = true →
      let i := fieldAt b 5 1 % 16
      let key : Nat × Nat := (fieldAt b 0 5, fieldAt b 5 1 / 16)
      let got (e : Dev) : Prop := Makes (.isoFrameRx l node off b) s e
      (inStream d l node i = none → got (bump d ix 0x17)) ∧
      ∀ q, inStream d l node i = some q →
        ((mget [] x.isoSeen i).contains key = true → got d) ∧
        ((mget [] x.isoSeen i).contains key = false →
          let ws := mget [] x.part i ++ (rangeFrom 0 (min 16 (fieldAt b 6 1 * fieldAt b 7 1))).map (fun j => fieldAt b (8 + 4 * j) 4)
          let r := wordItems 8 ws;
          (qRoom d q < r.1.length → got (bump d ix 0x17)) ∧
          (r.1.length ≤ qRoom d q → got (qPushAll (modLink d l (fun x => { x with
            part := mput [] x.part i r.2, isoSeen := mput [] x.isoSeen i (mget [] x.isoSeen i ++ [key]) })) q r.1)))) ∧
    ∀ (owner : Nat) (off : Int) (b : List Byte), receives d l = true → chainMode d l = true →
      let g := guardTest d l owner off
      (g.1 = false → Makes (.chainFrameForward l owner off b) s g.2) ∧
      (g.1 = true → owner ≠ ownNode d l → Makes (.chainFrameForward l owner off b) s (modLink g.2 l (fun x => { x with
        forwarded := x.forwarded ++ [b] }))) ∧
      (∀ f, g.1 = true → owner = ownNode d l → x.sent.find? (fun f => f.frame.bytes = b) = some f →
        Makes (.chainFrameForward l owner off b) s (modLink g.2 l (fun x => { x with sent := x.sent.erase f })))

/-! ### Tuber -/

/-- 12 R334, R336, R337, R341, R348, R349, R356, R363: a scrub counts a corrected word, and an uncorrectable one is a record, fails the verification of every region that
its burst meets and faults the enabled ones. A fetch that lands gives its stream the next n frames in playback order past the head that it does not hold. A VERIFY that ends gives the region's CRC, and its state is 2 exactly when
no burst failed and the CRC is the entry's. The retraining ends with each channel running or failed, its refresh rate read, and the descriptors go on.
The model's choices here are log entries 7, 37, 44, 52, 62. -/
def Obligations.TuberReadsAndVerifies : Prop :=
  ∀ s : State, Awake s →
    let d := s.dev
    (∀ a, Makes (.tuberScrub a .ok) s d ∧
      Makes (.tuberScrub a .corrected) s (bump d (0x6850 + a / 3584 % 2) 0x03) ∧
      ∃ e, Makes (.tuberScrub a .uncorrectable) s e ∧
        oGet e (0x6850 + tChan a) 0x04 = min (topOf (0x6850 + tChan a) 0x04) (oGet d (0x6850 + tChan a) 0x04 + 1) ∧
        oGet e (0x6850 + tChan a) 0x05 = tBurst a ∧
        (∃ y ∈ e.faults, y.kind = 4 ∧ y.unit = 0xD0 + tChan a ∧ y.addr = tBurst a) ∧
        (∀ r, r ∈ enabledRegions d.ver.active → inRegion d (burstBase a) 64 r = true →
          mget 0 e.tuber.region r = 2 ∧ mget 0 e.tuber.faulted r = 1) ∧
        (∀ r, r ∈ listedRegions d.ver.active → inRegion d (burstBase a) 64 r = true → mget 0 e.tuber.verify r = 3) ∧
        (∀ r, inRegion d (burstBase a) 64 r = false → mget 0 e.tuber.region r = mget 0 d.tuber.region r ∧
          mget 0 e.tuber.verify r = mget 0 d.tuber.verify r) ∧ e.tuber.mem = d.tuber.mem) ∧
    (∀ (serial osc n lat : Nat) (errs : List (Nat × Bool)),
      d.tuber.streams.find? (fun x => x.serial = serial && x.osc = osc) = none ∨ voiceOf d serial = none →
      Makes (.streamFetchLanded serial osc n errs lat) s d) ∧
    (∀ (serial osc n lat : Nat) (x : Stream) (v : Voice),
      d.tuber.streams.find? (fun x => x.serial = serial && x.osc = osc) = some x → voiceOf d serial = some v →
      let want := wanted d x v
      let ahead (f : Nat × Int × Int) : Bool := want.contains f.1
      ∃ (e : Dev) (js : List Nat), Makes (.streamFetchLanded serial osc n [] lat) s e ∧
        js = (want.filter (fun j => !((x.frames ++ x.fresh).map (·.1)).contains j)).take n ∧
        (∀ j, j ∈ js → headLen d x.zone.region ≤ j ∧ j < x.zone.len) ∧
        e.tuber.streams = d.tuber.streams.map (fun y => if y.serial = serial ∧ y.osc = osc then
          { y with frames := y.frames.filter (fun f => !ahead f) ++ y.frames.filter ahead
                   fresh := y.fresh ++ js.map (fun j => (j, regionFrame d x.zone j)), begun := true } else y) ∧
        oGet e 0x6820 0x0E = (if x.begun = true then oGet d 0x6820 0x0E else max (oGet d 0x6820 0x0E) (min lat (2 ^ 32 - 1))) ∧
        (∀ w, w ∈ e.gourd.poison → w ∈ d.gourd.poison) ∧
        OnlyObjs { d with tuber := { d.tuber with streams := e.tuber.streams }, gourd := { d.gourd with poison := e.gourd.poison } } e
          [okey 0x6820 0x0E 0]) ∧
    (∀ errs, d.tuber.verifying = none ∨ d.tuber.retraining = true → Makes (.verifyDone errs) s d) ∧
    (∀ r errs, d.tuber.verifying = some r → d.tuber.retraining = false →
      (∀ e ∈ errs, inRegion d (burstBase e.1) 64 r = false) →
      let c := crc32c (mread d.tuber.mem (rgn d.ver.active r 2) (rgnBytes d.ver.active r))
      Makes (.verifyDone errs) s { d with tuber := { d.tuber with
        verifyCrc := mput 0 d.tuber.verifyCrc r c, verifying := none
        verify := mput 0 d.tuber.verify r (if c = rgn d.ver.active r 7 then 2 else 3) } }) ∧
    (∀ r a, d.tuber.verifying = some r → d.tuber.retraining = false → inRegion d (burstBase a) 64 r = true →
      ∃ e, Makes (.verifyDone [(a, true)]) s e ∧ mget 0 e.tuber.verify r = 3 ∧ e.tuber.verifying = none) ∧
    (d.tuber.retraining = false → Makes .lpddr5RetrainDone s d) ∧
    (d.tuber.retraining = true → ∃ t : Dev, Makes .lpddr5RetrainDone s (dmaPump t) ∧ t.tuber = { d.tuber with retraining := false } ∧
      (∀ c, c < 2 → (oGet t (0x6850 + c) 1 = 1 ∨ oGet t (0x6850 + c) 1 = 3) ∧ oGet t (0x6850 + c) 6 ∈ [1, 2, 4]) ∧
      OnlyObjs { d with tuber := t.tuber, free := t.free } t [okey 0x6850 1 0, okey 0x6850 6 0, okey 0x6851 1 0, okey 0x6851 6 0])

/-- 12 R353-R355, R357-R359: an idle channel with an owner that is not frozen takes the next descriptor of its ring, but none while its completion queue is full (16 R493); one that is refused keeps its status, and status 3
freezes the owner under cause 6. A descriptor that ends moves its bytes and enters its completion item, for which it waits for room; one whose source
meets an uncorrectable error still moves and ends with status 4. Between a ring and sample memory, items move as far as the ring's items or its room let them. The copy of a move
writes the destination and goes to its read-back, which ends in state 3 when the CRC agrees and in state 5 else; a switched move is done with its last fetch.
The model's choices here are log entries 7, 14, 44, 70. -/
def Obligations.TuberTransfers : Prop :=
  ∀ s : State, Awake s →
    let d := s.dev
    (∀ c errs, 8 ≤ c ∨ dmaF d c 0 = 0xFF ∨ ownerFrozen d c = true ∨ (jobOf d c).isSome = true ∨ d.tuber.retraining = true ∨
      engineItems d (dmaF d c 6) = [] → Makes (.dmaDescriptor c errs) s d) ∧
    (∀ c errs, c < 8 → dmaF d c 0 ≠ 0xFF → ownerFrozen d c = false → jobOf d c = none → d.tuber.retraining = false →
      engineItems d (dmaF d c 6) ≠ [] → qRoom d (dmaF d c 7) = 0 → Makes (.dmaDescriptor c errs) s (fullWait d (dmaF d c 7))) ∧
    (∀ c errs, c < 8 → dmaF d c 0 ≠ 0xFF → ownerFrozen d c = false → jobOf d c = none → d.tuber.retraining = false →
      engineItems d (dmaF d c 6) ≠ [] → 0 < qRoom d (dmaF d c 7) →
      let x := qTake d (dmaF d c 6)
      let e := resumeProducers x.2.2 (dmaF d c 6)
      let b := toLE 16 x.1.toNat
      let j : DmaJob := ⟨fieldAt b 0 5, fieldAt b 5 1 % 16, fieldAt b 6 2, fieldAt b 8 4, fieldAt b 12 4, 0, 0, 0xFFFFFFFF, [], false⟩
      let st := dmaStatus e c j (fieldAt b 5 1);
      (st = 1 ∨ st = 2 → Makes (.dmaDescriptor c errs) s (setJob e c (some { j with status := st }))) ∧
      (st = 3 → Makes (.dmaDescriptor c errs) s (freezeOwner (setJob e c (some { j with status := 3 })) c)) ∧
      let met := errs.filter (fun y => meets (burstBase y.1) 64 j.taddr j.count)
      let bad := (met.filter (·.2)).map (·.1)
      let eT := tuberErrs e met
      let eG := gourdErrs e (errs.filter (fun y => meets (y.1 / 8 * 8) 8 j.gaddr j.count))
      (st = 0 → j.op = 1 → Makes (.dmaDescriptor c errs) s (setJob eT c (some { j with status := if bad = [] then 0 else 4, bad := bad }))) ∧
      (st = 0 → j.op = 2 → Makes (.dmaDescriptor c errs) s (setJob (touchRegions eG j.taddr j.count) c (some { j with
        status := if eG.gourd.poison.any (fun w => meets (8 * w) 8 j.gaddr j.count) = true then 4 else 0 }))) ∧
      (st = 0 → j.op = 0 →
        let ready := engineItems e j.gaddr
        let n := min ready.length (ceilDiv j.count 16)
        let bytes := ((ready.take n).flatMap (fun v => toLE 16 v.toNat)).take j.count
        ∃ f, Makes (.dmaDescriptor c errs) s f ∧
          (∀ b, mget 0#8 f.tuber.mem b = if j.taddr ≤ b ∧ b < j.taddr + bytes.length then (bytes[b - j.taddr]?).getD 0#8 else mget 0#8 e.tuber.mem b) ∧
          jobOf f c = some { j with moved := bytes.length, crc := crcRun 0x82F63B78 j.crc bytes } ∧
          (queueOf e j.gaddr).items.drop n <+: (queueOf f j.gaddr).items) ∧
      (st = 0 → j.op = 3 → bad = [] →
        let n := min (qRoom e j.gaddr) (ceilDiv j.count 16)
        let m := min (16 * n) j.count
        let bytes := mread e.tuber.mem j.taddr m
        ∃ f items, Makes (.dmaDescriptor c errs) s f ∧ f.tuber.mem = e.tuber.mem ∧
          jobOf f c = some { j with moved := m, crc := crcRun 0x82F63B78 j.crc bytes, waits := decide (m < j.count) } ∧
          (queueOf f j.gaddr).items = (queueOf e j.gaddr).items ++ items ∧ items.length = n ∧
          (items.flatMap (fun v => toLE 16 v.toNat)).take m = bytes) ∧
      (st = 0 → j.op = 3 → bad ≠ [] → ∃ f y, Makes (.dmaDescriptor c errs) s f ∧ jobOf f c = some y ∧ y.status = 4 ∧ y.bad = bad)) ∧
    (∀ c, jobOf d c = none → Makes (.dmaCompletion c) s d) ∧
    (∀ c j, jobOf d c = some j →
      let refused : Prop := 1 ≤ j.status ∧ j.status ≤ 3
      let ring : Prop := j.op = 0 ∨ j.op = 3
      let d1 := if j.op = 0 then resumeProducers d j.gaddr else d
      (d.tuber.retraining = true → Makes (.dmaCompletion c) s d) ∧
      (d.tuber.retraining = false → refused ∨ (ring ∧ j.moved = j.count) →
        (qRoom d1 (dmaF d1 c 7) = 0 → Makes (.dmaCompletion c) s (fullWait d1 (dmaF d1 c 7))) ∧
        (qRoom d1 (dmaF d1 c 7) ≠ 0 → Makes (.dmaCompletion c) s (qFill (setJob d1 c none) (dmaF d1 c 7) (dmaItem j)))) ∧
      (d.tuber.retraining = false → j.status = 0 → j.op = 0 → j.moved < j.count → engineItems d j.gaddr = [] → Makes (.dmaCompletion c) s d1) ∧
      (d.tuber.retraining = false → j.status = 0 ∨ j.status = 4 → j.op = 3 → j.moved < j.count → qRoom d j.gaddr = 0 → j.waits = true → Makes (.dmaCompletion c) s d) ∧
      (d.tuber.retraining = false → ¬ refused → j.op = 1 ∨ j.op = 2 → qRoom d (dmaF d c 7) = 0 →
        Makes (.dmaCompletion c) s (fullWait d (dmaF d c 7))) ∧
      (d.tuber.retraining = false → qRoom d (dmaF d c 7) ≠ 0 →
        (¬ refused → j.op = 1 → ∃ bs k, bs.length = j.count ∧ (j.bad = [] → k = d.free) ∧
          (∀ i, i < j.count → isBad j.bad (j.taddr + i) = false → bs[i]? = some (mget 0#8 d.tuber.mem (j.taddr + i))) ∧
          Makes (.dmaCompletion c) s (qFill (setJob (gWrite { d with free := k } j.gaddr bs) c none) (dmaF d c 7) (dmaItem (moved j bs)))) ∧
        (¬ refused → j.op = 2 →
          let bs := gourdBytes d j.gaddr j.count
          Makes (.dmaCompletion c) s (qFill (setJob (tuberWrite d j.taddr bs) c none) (dmaF d c 7) (dmaItem (moved j bs)))))) ∧
    (oGet d 0x6830 4 ≠ 1 → ∀ errs, Makes (.moveCopyDone errs) s d) ∧
    (oGet d 0x6830 4 = 1 → ∃ e, Makes (.moveCopyDone []) s e ∧ oGet e 0x6830 4 = 2 ∧ oGet e 0x6830 7 = 0 ∧
      e.tuber.mem = mwrite d.tuber.mem d.tuber.moveTo (mread d.tuber.mem (oGet d 0x6830 6) (moveBytes d)) ∧
      OnlyObjs { d with tuber := e.tuber } e [okey 0x6830 4 0, okey 0x6830 7 0]) ∧
    (oGet d 0x6830 4 ≠ 2 → ∀ errs, Makes (.moveVerifyDone errs) s d) ∧
    (oGet d 0x6830 4 = 2 → let c := crc32c (mread d.tuber.mem d.tuber.moveTo (moveBytes d))
      ∃ e, Makes (.moveVerifyDone []) s e ∧ oGet e 0x6830 7 = moveBytes d ∧
        oGet e 0x6830 4 = (if c = rgn d.ver.active (oGet d 0x6830 5) 7 then 3 else 5) ∧
        OnlyObjs d e [okey 0x6830 4 0, okey 0x6830 7 0]) ∧
    (oGet d 0x6830 4 = 3 → d.tuber.switched = true → Makes .moveDone s (oSet d 0x6830 4 4)) ∧
    (oGet d 0x6830 4 ≠ 3 ∨ d.tuber.switched = false → Makes .moveDone s d)

/-! ### Serial audio ports, converters, sensors -/

/-- 18 R552-R554, R557-R562: a frame start, one for each engine sample on a synchronous port, sends the oldest frame of a FIFO that holds three, or the last again, most
significant bit first on the slots that OUT_MASK picks, with FSYNC as FORMAT says and a BCLK that a master holds low with it while it is off or the media stands. An input
frame's slot words that IN_MASK picks enter its ring as items of four words, once for each engine sample, or are dropped and counted without room; with a converter they go to it, one for each engine sample on a synchronous port, and
at each engine sample it writes words that follow the frames and the ratio when it is locked, and zeros without lock. A valid frame that is not written ends a run of framing errors and state 0 of the converter all the same. Framing errors count on an enabled slave, and four in a row
without a valid frame end the converter's state. Valid clocks put a
slave port in state 2, their loss in state 1; a stable estimate of 0.25 to 4 locks an ASRC, one not stable returns it to acquiring, one beyond puts it out of range.
The model's choices here are log entries 7, 14, 46. -/
def Obligations.SerialAudioPorts : Prop :=
  ∀ (s : State) (n : Nat), Awake s → n < 4 →
    let d := s.dev
    let x := sapOf d n
    let ix := sapIdx n
    let ax := 0x7100 + n
    let slave : Prop := sapOn d n = true ∧ sapMaster d n = false
    let heard (e : Dev) : Dev := let f := modSap e n (fun y => { y with bad := 0 })
      if rs d ax 1 = 1 ∧ asrcState d n = 0 then oSet f ax 2 1 else f
    let started (e : Dev) : Dev := if sapSync d n = true then modSap e n (fun y => { y with due := false }) else e
    let sb := sapF d n 5
    let format := sapF d n 3
    let cfg := sapF d n 7
    let first := if format = 0 then 1 else if format = 1 then 0 else if bitOf cfg 1 = true then 1 else 0
    (mediaRuns d = true → sapSends d n = true → (sapSync d n = true → x.due = true) →
      (∀ f r, x.fifo = f :: r → x.sending = false ∧ 3 ≤ x.fifo.length →
        Makes (.sapFrameStart n) s (started (modSap d n (fun y => { y with sending := true, fifo := r, last := f.2 })))) ∧
      (x.sending = false → x.fifo.length < 3 → Makes (.sapFrameStart n) s (started (modSap d n (fun y => { y with last := [] })))) ∧
      (∀ f r, x.fifo = f :: r → x.sending = true →
        Makes (.sapFrameStart n) s (started (modSap d n (fun y => { y with fifo := r, last := f.2 })))) ∧
      (x.fifo = [] → x.sending = true → Makes (.sapFrameStart n) s
        (started (voidAt (bump (bump d ix 0x14) 0x0110 0x03) 3 (d.media.next / blockLen d))))) ∧
    (mediaRuns d = false ∨ sapSends d n = false ∨ (sapSync d n = true ∧ x.due = false) → Makes (.sapFrameStart n) s d) ∧
    (∀ p i k, p < 2 → i < 16 → k < sb → sb ≤ 32 → let b := 16 * p + i
      let c := ((rangeFrom 0 b).filter (bitOf (sapF d n 9))).length
      sapDo d n p (i * sb + k) = (bitOf (sapF d n 9) b && bitOf (wrapU 32 (nth 0 x.last c)) (31 - k))) ∧
    (∀ t, let inv (v : Bool) : Bool := v != bitOf cfg 2
      (sapOn d n = false ∨ sapMaster d n = false ∨ mediaRuns d = false → sapFsync d n t = false ∧ sapBclk d n t = false) ∧
      (sapOn d n = true → sapMaster d n = true → mediaRuns d = true →
      (sapBclk d n 0 = (sapF d n 6 == 1)) ∧ (sapBclk d n 1 = (sapF d n 6 != 1)) ∧
      (format = 0 → sapFsync d n t = inv (decide (sb ≤ t))) ∧ (format = 1 → sapFsync d n t = inv (decide (t < sb))) ∧
      (format = 2 → sapFsync d n t = inv (decide (t < if bitOf cfg 0 = true then sb else 1))))) ∧
    (∀ levels : List Nat, mediaRuns d = true → 2 ≤ sapShown d n → sapF d n 8 ≠ 0 →
      let q := sapF d n 0x0A
      let word (b : Nat) : Nat := ((rangeFrom 0 sb).map (fun k =>
        if bitOf (nth 0 levels (first + sb * (b % 16) + k)) (b / 16) = true then 2 ^ (sb - 1 - k) else 0)).sum
      let ws := ((rangeFrom 0 32).filter (bitOf (sapF d n 8))).map (fun b => word b * 2 ^ (32 - sb))
      let h := heard d
      let e := modSap h n (fun x => { x with frames := ((x.pos, ws) :: x.frames).take 352, inDue := false })
      (sapSync d n = true → x.inDue = false → Makes (.sapInputFrame n levels) s h) ∧
      (rs d ax 1 ≠ 1 → sapSync d n = false → x.inDue = false → Makes (.sapInputFrame n levels) s e) ∧
      (rs d ax 1 ≠ 1 → x.inDue = true → let r := wordItems 16 (x.part ++ ws)
        (qRoom d q < r.1.length → Makes (.sapInputFrame n levels) s (bump e ix 0x13)) ∧
        (r.1.length ≤ qRoom d q → Makes (.sapInputFrame n levels) s (qPushAll (modSap e n (fun y => { y with part := r.2 })) q r.1))) ∧
      (rs d ax 1 = 1 → sapSync d n = false ∨ x.inDue = true → Makes (.sapInputFrame n levels) s e)) ∧
    (∀ levels, mediaRuns d = false ∨ sapShown d n < 2 ∨ sapF d n 8 = 0 → sapSample d n = d ∧
      (sapOn d n = true → mediaRuns d = true ∨ sapMaster d n = false → Makes (.sapInputFrame n levels) s (heard d)) ∧
      (sapOn d n = false ∨ (mediaRuns d = false ∧ sapMaster d n = true) → Makes (.sapInputFrame n levels) s d)) ∧
    (mediaRuns d = true → 2 ≤ sapShown d n → sapF d n 8 ≠ 0 →
      let q := sapF d n 0x0A
      let writes (e : Dev) (ws : List Nat) : Dev := let r := wordItems 16 (x.part ++ ws)
        if qRoom d q < r.1.length then bump e ix 0x13 else qPushAll (modSap e n (fun y => { y with part := r.2 })) q r.1
      let next (e : Dev) : Dev := modSap e n (fun y => { y with pos := x.pos + 1, inDue := true })
      (rs d ax 1 ≠ 1 → sapSample d n = next (if x.inDue = true ∧ x.frames ≠ [] then writes d (nth (0, []) x.frames 0).2 else d)) ∧
      (rs d ax 1 = 1 → let fs := if x.inDue = true ∧ sapSync d n = true ∧ x.frames ≠ []
          then ((x.pos, (nth (0, []) x.frames 0).2) :: x.frames).take 352 else x.frames
        let e := next (modSap d n (fun y => { y with frames := fs }))
        (asrcState d n = 0 → sapSample d n = e) ∧
        (asrcState d n = 1 ∨ asrcState d n = 3 → sapSample d n = writes e (List.replicate (sapIns d n) 0)) ∧
        (asrcState d n = 2 → sapSample d n = writes e ((rangeFrom 0 (sapIns d n)).map (fun c =>
          Config.asrc (fs.map (fun f => (x.pos + 1 - f.1, f.2))) (oGet d ax 3) c % 2 ^ 32))))) ∧
    (slave → let e := modSap (oSet d ix 0x12 (min (topOf ix 0x12) (oGet d ix 0x12 + 1))) n (fun y => { y with bad := min 4 (y.bad + 1) })
      (x.bad < 3 → Makes (.sapFramingError n) s e) ∧ (3 ≤ x.bad → ∃ t, Makes (.sapFramingError n) s t ∧ asrcState t n = 0 ∧
        OnlyObjs e t [okey ax 2 0])) ∧
    (¬ slave → Makes (.sapFramingError n) s d ∧ Makes (.sapClockLoss n) s d ∧ ∀ r b, Makes (.sapClocksValid n r b) s d) ∧
    (∀ rate bclk, slave → ∃ e, Makes (.sapClocksValid n rate bclk) s e ∧ sapState e n = 2 ∧ oGet e ix 0x0F = rate % 2 ^ 32 ∧
      oGet e ix 0x10 = bclk % 2 ^ 32 ∧ asrcState e n = (if rs d ax 1 = 1 ∧ asrcState d n = 0 then 1 else asrcState d n) ∧
      (sapOf e n = if sapState d n = 2 then x else { x with frames := [], inDue := false, bad := 0 }) ∧
      OnlyObjs { d with saps := e.saps } e [okey ix 0x11 0, okey ix 0x0F 0, okey ix 0x10 0, okey ax 2 0]) ∧
    (slave → sapState d n = 2 → ∃ e, Makes (.sapClockLoss n) s e ∧ sapState e n = 1 ∧ asrcState e n = 0 ∧
      (mediaState d = 2 → oGet d 0x2020 0x0B = 2 + n → mediaState e = 3 ∧ oGet e 0x2020 0x0A = 0) ∧
      (oGet d 0x2020 0x0B ≠ 2 + n → OnlyObjs d e [okey ix 0x11 0, okey ax 2 0])) ∧
    (∀ est : Estimate, sapOn d n = true → rs d ax 1 = 1 → asrcState d n ≠ 0 →
      let r := est.ratio % 2 ^ 32
      let ok : Prop := 2 ^ 22 ≤ r ∧ r ≤ 2 ^ 26
      ∃ e, Makes (.asrcLock n est) s e ∧ oGet e ax 3 = r ∧
        (ok → est.stable = true → asrcState e n = 2 ∧ oGet e ax 5 = 8192 + roundDiv (48 * 256 * 2 ^ 24) r) ∧
        (ok → est.stable = false → asrcState e n = 1 ∧ oGet e ax 5 = oGet d ax 5) ∧
        (¬ ok → asrcState e n = 3 ∧ oGet e ax 5 = oGet d ax 5) ∧
        oGet e ax 4 = (if asrcState d n = 2 ∧ asrcState e n ≠ 2 then min (topOf ax 4) (oGet d ax 4 + 1) else oGet d ax 4) ∧
        OnlyObjs d e [okey ax 2 0, okey ax 3 0, okey ax 4 0, okey ax 5 0]) ∧
    (∀ est, sapOn d n = false ∨ rs d ax 1 ≠ 1 ∨ asrcState d n = 0 → Makes (.asrcLock n est) s d)

/-- 19 R579, R580, R583, R585-R587, 20 R599-R606, R609, R610: a strobe of LD_SRC 1 loads the pending codes while the media runs, a sample arrived and no clear is active; a hold ends with
its code; CLRCV loads every CLEAR_CODE unless a clear was active; a load fault shows its flag and counts once. A scan moves the address of the muxes; coarse and
fine conversions show their values, at the sensor that was sampled, and go to the strike machine, the main path and the detector, whose crossing wakes a sleeping device; a waiting strike item enters
its ring when there is room, and is discarded while the media stands. A key that is down when the main path starts gives nothing until it has returned to REST.
The model's choices here are log entries 7, 47, 51. -/
def Obligations.ConvertersAndSensors : Prop :=
  ∀ s : State,
    let d := s.dev
    let settled (n : Nat) : Prop := (cvOf d n).hold = none → (cvOf d n).next = none
    (Awake s →
      (rs d 0x7420 2 = 1 → mediaRuns d = true → d.analog.arrived = true → clearActive d = false →
        ((∃ n, n < 16 ∧ anaOn d (8 + n) = true) → Makes .cvStrobePin s (bump ((rangeFrom 0 16).foldl strobeCh d) 0x7420 7)) ∧
        ((∀ n, n < 16 → anaOn d (8 + n) = false) → Makes .cvStrobePin s d)) ∧
      (∀ n, n < 16 → anaOn d (8 + n) = false → strobeCh d n = d) ∧
      (∀ n, n < 16 → anaOn d (8 + n) = true → settled n → let e := strobeCh d n
        let y : CvSet := ⟨(cvOf d n).pending, rs d (0x7410 + n) 2, rs d 0x7420 4⟩;
        cvNow (cvOf e n) = y ∧ ((cvOf d n).hold = none →
          let major : Prop := (cvOf d n).out.code / 8192 % 32 ≠ y.code / 8192 % 32
          (major → (cvOf e n).out = (cvOf d n).out ∧ (cvOf e n).hold = some y) ∧ (¬ major → (cvOf e n).out = y)) ∧
        (cvOf e n).pending = (cvOf d n).pending ∧ ∀ m, m ≠ n → cvOf e m = cvOf d m) ∧
      (rs d 0x7420 2 ≠ 1 ∨ mediaRuns d = false ∨ d.analog.arrived = false ∨ clearActive d = true →
        Makes .cvStrobePin s d) ∧
      (∀ n, n < 16 → ∃ e, Makes (.deglitchHoldEnd n) s e ∧ cvCode (cvOf e n) = cvCode (cvOf d n) ∧
        ((cvOf d n).hold = none → cvOf e n = cvOf d n) ∧
        (∀ c, (cvOf d n).hold = some c → (cvOf d n).next = none → (cvOf e n).out = c ∧ (cvOf e n).hold = none) ∧
        ∀ m, m ≠ n → cvOf e m = cvOf d m) ∧
      (∀ n, n < 8 → let ix := 0x7400 + n
        let fault := rs d ix 3 = 1
        let raised (e : Dev) (flag other : Nat) : Prop := oGet e ix flag = 1 ∧
          oGet e ix 7 = min (topOf ix 7) (oGet d ix 7 + 1) ∧ oGet e ix 4 = (if fault then 2 else 1) ∧
          OnlyObjs d e [okey ix flag 0, okey ix other 0, okey ix 7 0, okey ix 4 0]
        (anaOn d n = true → oGet d ix 5 = 0 → ∃ e, Makes (.dacLoadFault n false) s e ∧ raised e 5 6 ∧ oGet e ix 6 = 0) ∧
        (anaOn d n = true → oGet d ix 5 = 0 → oGet d ix 6 = 0 → ∃ e, Makes (.dacLoadFault n true) s e ∧ raised e 6 6) ∧
        (anaOn d n = false → ∀ c, Makes (.dacLoadFault n c) s d) ∧
        Makes (.dacLoadFaultClear n false) s (oSet d ix 5 0) ∧ Makes (.dacLoadFaultClear n true) s (oSet d ix 6 0))) ∧
    (clearActive d = true → Makes .clrcvAssert s { d with analog := { d.analog with clrPin := true } }) ∧
    (clearActive d = false → ∃ e, Makes .clrcvAssert s e ∧ clearActive e = true ∧
      (∀ n, n < 16 → settled n → cvCode (cvOf e n) = rs d (0x7410 + n) 3) ∧
      { e with analog := { e.analog with cv := d.analog.cv, clrPin := d.analog.clrPin } } = d) ∧
    Makes .clrcvRelease s { d with analog := { d.analog with clrPin := false } } ∧
    (pathState d = 0 → Makes .senseScan s { d with sense := { d.sense with smx := 0, smxWas := d.sense.smx } }) ∧
    (∀ n, n < 32 → sensorNow d n = (if muxed d n = false then 8 * n else if n = 31 then 8 * n + d.sense.smxWas else 8 * n + d.sense.smx)) ∧
    (pathState d ≠ 0 → Makes .senseScan s { d with sense := { d.sense with scan := d.sense.scan + 1, smxWas := d.sense.smx, smx :=
      (if rs d 0x7800 0x0C = 0 then 0 else if pathState d = 1 then d.sense.scan % 8 else rs d 0x7800 6) } }) ∧
    (∀ n c pos, n < 32 → pathState d ≠ 0 → rs d (0x7810 + n) 1 = 1 →
      let k := sensorNow d n
      let e := oSet { d with sense := { d.sense with sampled := mput none d.sense.sampled n (some k) } } (0x7900 + k) 0x0C (c % 1024);
      (pathState d = 2 → Makes (.senseCoarseReady n c pos) s e) ∧
      (pathState d = 1 → sf d k 6 ≠ 1 → Makes (.senseCoarseReady n c pos) s (keyRun e k (c % 1024))) ∧
      (pathState d = 1 → sf d k 6 = 1 → Makes (.senseCoarseReady n c pos) s (strikeRun e k (c % 1024) pos))) ∧
    (∀ n c pos, 32 ≤ n ∨ pathState d = 0 ∨ rs d (0x7810 + n) 1 ≠ 1 → Makes (.senseCoarseReady n c pos) s d) ∧
    (∀ n x pos, Awake s → n < 32 → pathState d ≠ 0 → rs d (0x7810 + n) 1 = 1 →
      let k := (mget none d.sense.sampled n).getD (sensorNow d n)
      let v := oSet d (0x7810 + n) 2 (x % 65536)
      let w := oSet (if x % 65536 = 0 ∨ x % 65536 = 65535 then bump v (0x7810 + n) 3 else v) (0x7900 + k) 0x0C (x % 65536 / 64)
      let m := if pathState d = 1 then mainPath w k (x % 65536) pos else w;
      (muxed d n = true → k % 8 ≠ rs d (0x7840 + n) 2 → Makes (.senseConversion n x pos) s m) ∧
      (muxed d n = false ∨ k % 8 = rs d (0x7840 + n) 2 → Makes (.senseConversion n x pos) s (detector m n (x % 65536)).2)) ∧
    (∀ n x pos, Awake s → 32 ≤ n ∨ pathState d = 0 ∨ rs d (0x7810 + n) 1 ≠ 1 → Makes (.senseConversion n x pos) s d) ∧
    (∀ n x pos, d.power.phase = .asleep → (convert d n x pos).1 = true →
      Makes (.senseConversion n x pos) s (wake (convert d n x pos).2 4)) ∧
    (∀ v r, d.sense.strike = v :: r → (let q := rs d 0x7800 4;
      (mediaRuns d = false → Makes .strikeItemEntry s { d with sense := { d.sense with strike := [] } }) ∧
      (mediaRuns d = true → q ≠ 0xFFFF → 0 < qRoom d q →
        Makes .strikeItemEntry s { qPush d q v with sense := { d.sense with strike := r } }) ∧
      (mediaRuns d = true → q = 0xFFFF ∨ qRoom d q = 0 → Makes .strikeItemEntry s d))) ∧
    (∀ k c pos : Nat, let y := sensorOf d k
      let c' : Nat := if sf d k 7 = 0 then c else 1023 - c
      let keyed (x : KeyAt) : Dev := modSensor d k (fun z => { z with key := x })
      (y.key = .fresh → sf d k 9 ≤ c' → strikeRun d k c pos = keyed .held ∧ keyRun d k c = keyed .held) ∧
      (y.key = .fresh → c' < sf d k 9 → keyRun d k c = keyed .free) ∧ (y.key = .free → keyRun d k c = keyed .free) ∧
      (y.key = .held → sf d k 8 ≤ c' + sf d k 0x0A → strikeRun d k c pos = keyed .held) ∧
      (y.key = .held → c' + sf d k 0x0A < sf d k 8 → (sensorOf (strikeRun d k c pos) k).key = .free)) ∧
    (d.sense.strike = [] → Makes .strikeItemEntry s d)

/-! ### Timers, ticks, scrubs, UARTs -/

/-- 13 R373-R375, 16 R482, R483, R493, 21 R621-R623, R626-R628: a tick adds 1 to CNT modulo 2^32; a match counts and moves CMP on by the interval; an edge of a pin shows its level, clocks and
captures; a capture keeps CNT, the distance to the capture before and SIX_NOW. The microsecond tick never goes back nor past its Link cycle and wakes the threads whose delay has passed, tick by tick in
list order; a queue with room lets its first stalled producer go on. A scrub counts a corrected word and poisons an uncorrectable one, and its last word ends a pass.
The model's choices here are log entries 7, 15, 48, 50, 51, 52. -/
def Obligations.TimersTicksAndScrubs : Prop :=
  ∀ s : State,
    let d := s.dev
    (Awake s →
      (∀ n, n < 16 → let ix := 0x7C00 + n
        let src := rs d ix 2
        let c := (oGet d ix 4 + 1) % 2 ^ 32
        let runs : Prop := rs d ix 1 = 1 ∧ 1 ≤ src ∧ src ≤ 4 ∧ (src = 3 → mediaRuns d = true)
        (¬ runs → Makes (.timerTick n) s d) ∧
        (runs → Makes (.timerTick n) s (tcTick 16 id d n)) ∧
        (runs → (timerOf d n).pulse = false → c ≠ 0 → rs d ix 7 ≠ 1 ∨ c ≠ oGet d ix 5 → Makes (.timerTick n) s (oSet d ix 4 c)) ∧
        (runs → (timerOf d n).pulse = false → c ≠ 0 → rs d ix 7 = 1 → c = oGet d ix 5 → 7 < rs d ix 8 → rs d 0x7420 2 ≠ 2 →
          ∃ e, Makes (.timerTick n) s e ∧ oGet e ix 4 = c ∧ oGet e ix 0x11 = min (topOf ix 0x11) (oGet d ix 0x11 + 1) ∧
            oGet e ix 5 = (c + rs d ix 6) % 2 ^ 32 ∧ OnlyObjs d e [okey ix 4 0, okey ix 5 0, okey ix 0x11 0])) ∧
      (∀ tick, let due := (d.stalk.delays.flatMap (fun c => c.2.map (·.1))).filter (· ≤ tick)
        let at' (e : Dev) (now : Nat) : Dev := schedule ((rangeFrom 0 4).foldl (expireList now) (oSet e 0x5800 0x20 now));
        (tick ≤ tickNow d ∨ 125 * (d.cycles + 1) ≤ tick → Makes (.delayExpiry tick) s d) ∧
        (tickNow d < tick → tick < 125 * (d.cycles + 1) → ∃ ticks : List Nat, ticks.Pairwise (· < ·) ∧
          (∀ x, x ∈ ticks ↔ x ∈ due) ∧ Makes (.delayExpiry tick) s (oSet (ticks.foldl at' d) 0x5800 0x20 tick))) ∧
      (∀ q, q < 4096 → (queueOf d q).waiters = [] → Makes (.qputResume q) s (schedule d)) ∧
      (∀ q t r, q < 4096 → (queueOf d q).waiters = t :: r →
        (0 < qRoom d q → Makes (.qputResume q) s (schedule (resumePut (modQueue d q (fun x => { x with waiters := r })) q t))) ∧
        (qRoom d q = 0 → Makes (.qputResume q) s (schedule d))) ∧
      (∀ a, a < 0x2000000 → let b := a / 2 ^ 19 % 64
        Makes (.gourdScrub a .ok false) s d ∧ Makes (.gourdScrub a .corrected false) s (bump d (0x6000 + b) 3) ∧
        Makes (.gourdScrub a .ok true) s (oSet (bump d (0x8180 + b) 3) (0x8180 + b) 2 (uptimeMs d)) ∧
        ∃ e, Makes (.gourdScrub a .uncorrectable false) s e ∧ isPoisoned e a = true ∧ e.gourd.mem = d.gourd.mem ∧
          (isPoisoned d a = true → e = d) ∧
          (isPoisoned d a = false → oGet e (0x6000 + b) 4 = min (topOf (0x6000 + b) 4) (oGet d (0x6000 + b) 4 + 1) ∧
            oGet e (0x6000 + b) 5 = a / 8 * 8 ∧ ∃ y ∈ e.faults, y.kind = 3 ∧ y.unit = 0x80 + b ∧ y.addr = a / 8 * 8))) ∧
    (∀ p rising frac, p < 8 → let l := oGet d 0x7C40 0x0A
      let lv := oSet d 0x7C40 0x0A (if rising = true then l ||| 2 ^ p else l - (if bitOf l p then 2 ^ p else 0));
      (Awake s → Makes (.tinEdge p rising frac) s ((rangeFrom 0 16).foldl (tinTimer p rising (frac % 65536)) lv)) ∧
      (d.power.phase ≠ .awake → Makes (.tinEdge p rising frac) s lv)) ∧
    ∀ (e : Dev) (frac n : Nat), n < 16 → rs e (0x7C00 + n) 0x10 = 0xFFFF → let ix := 0x7C00 + n
      let c := capture frac n e
      oGet c ix 0x0D = oGet e ix 4 ∧ oGet c ix 0x0E = (oGet e ix 4 + 2 ^ 32 - oGet e ix 0x0D) % 2 ^ 32 ∧ oGet c ix 0x0F = sixNow e ∧
        oGet c ix 0x12 = min (topOf ix 0x12) (oGet e ix 0x12 + 1) ∧
        OnlyObjs e c [okey ix 0x0D 0, okey ix 0x0E 0, okey ix 0x0F 0, okey ix 0x12 0]

/-- 21 R633-R641: a character reaches its unit with its break, framing and parity flags; in general mode it enters the item at hand, which closes when it is full, at the receive timeout, or
at a break. A closed item that waited enters when its ring has room. A transmitter that finished takes the next character unless it is paused. In sleep, characters enter the sleep buffer
of 16 of a unit that may wake the device, in place of the oldest once it is full, and count; a false start counts, in sleep too. The transmitter sends a start bit, the data from the
least significant bit, a parity bit and stop bits on a line that idles high. Characters lost before an item's first one mark it, and a port's notifications leave once no frame
waits before them. The model's choices here are log entries 7, 43, 60. -/
def Obligations.UartCharacters : Prop :=
  ∀ (s : State) (n : Nat), n < 4 →
    let d := s.dev
    let ix := 0x7E00 + n
    let u := uartOf d n
    (Awake s → ∀ (c : Nat) (par stop : Bool), let k := c % 2 ^ uBits d n
      let fl := charFlags d n k par stop
      Makes (.uartCharRx n c par stop) s (charIn d n k fl) ∧
      (uMode d n = 0 → Makes (.uartCharRx n c par stop) s d) ∧
      (uMode d n = 2 → uFlow d n = false → u.rx = [] → u.closed = none → fl = 0 → u.item.chars.length + 1 < itemCap d n →
        let gap := u.gap || u.lost
        ∃ e, Makes (.uartCharRx n c par stop) s e ∧ uartOf e n = { u with
            item := ⟨u.item.chars ++ [k], if u.item.chars = [] ∧ gap = true then u.item.flags ||| 4 else u.item.flags⟩
            gap := if u.item.chars = [] then false else gap, lost := false } ∧
          oGet e ix 0x14 = min (topOf ix 0x14) (oGet d ix 0x14 + 1) ∧ OnlyObjs { d with uarts := e.uarts } e [okey ix 0x14 0]) ∧
      (uMode d n = 2 → uFlow d n = false → u.rx = [] → u.closed = none → fl = 4 → 0 < qRoom d (uf d n 0x0A) →
        ∃ e, Makes (.uartCharRx n c par stop) s e ∧ (uartOf e n).item = ⟨[], 0⟩ ∧ (uartOf e n).rx = [] ∧
          oGet e ix 0x18 = min (topOf ix 0x18) (oGet d ix 0x18 + 1) ∧
          queueOf e (uf d n 0x0A) = queueOf (qPush d (uf d n 0x0A) (packItem d n { u.item with flags := u.item.flags ||| 8 })) (uf d n 0x0A))) ∧
    (Awake s → ∀ (c : Nat) (par stop : Bool), let fl := charFlags d n (c % 2 ^ uBits d n) par stop
      (fl = 4 ↔ c % 2 ^ uBits d n = 0 ∧ (uParity d n = 0 ∨ par = false) ∧ stop = false) ∧ (fl ≠ 4 → (fl % 2 = 1 ↔ stop = false))) ∧
    (d.power.phase = .asleep → ∀ (c : Nat) (par stop : Bool), let k := c % 2 ^ uBits d n
      let fl := charFlags d n k par stop
      (uMode d n = 0 ∨ uf d n 0x0D ≠ 1 → Makes (.uartCharRx n c par stop) s d) ∧
      (uMode d n ≠ 0 → uf d n 0x0D = 1 →
        let m := countChar d n fl
        let f := if 16 ≤ u.sleep.length then oSet m ix 0x1A (min (topOf ix 0x1A) (oGet d ix 0x1A + 1)) else m
        let e := modUart f n (fun u => { u with sleep := lastN 16 (u.sleep ++ [(k, fl)]) });
        (wakeChar e n k = false → Makes (.uartCharRx n c par stop) s e) ∧
        (wakeChar e n k = true → Makes (.uartCharRx n c par stop) s (wake e 3)))) ∧
    (Awake s →
      (uMode d n = 2 → uf d n 0x0C ≠ 0 → u.item.chars ≠ [] → u.closed = none →
        Makes (.uartRxTimeout n) s (flowCheck (drainRx 128 (closeItem d n { u.item with flags := u.item.flags ||| 16 }) n).1 n)) ∧
      (uMode d n ≠ 2 ∨ uf d n 0x0C = 0 ∨ u.item.chars = [] ∨ u.closed ≠ none → Makes (.uartRxTimeout n) s d) ∧
      (∀ x : UItem, let e := closeItem d n x
        (0 < qRoom d (uf d n 0x0A) → e = qPush (modUart d n (fun u => { u with item := ⟨[], 0⟩ })) (uf d n 0x0A) (packItem d n x)) ∧
        (qRoom d (uf d n 0x0A) = 0 → (uartOf e n).closed = some x ∧ (uartOf e n).item = ⟨[], 0⟩)) ∧
      (u.closed = none → Makes (.uartRxItemEntry n) s d) ∧
      (∀ x, u.closed = some x → let q := uf d n 0x0A
        (qRoom d q = 0 → Makes (.uartRxItemEntry n) s d) ∧
        (0 < qRoom d q → Makes (.uartRxItemEntry n) s
          (uartResume (modUart (qPush d q (packItem d n x)) n (fun u => { u with closed := none })) n))) ∧
      Makes (.uartTxDone n) s (afterAnswers (txPump (modUart d n (fun u => { u with sending := none })) n)) ∧
      (switchPending d = false → d.ver.startAfter = false → d.ver.untold = none → d.power.resetReq = none → d.power.sleepReq = false →
      (∀ x r, uMode d n = 3 → u.frames = [] → u.tx.length < 64 → (port d (4 + n)).notes = x :: r →
        ∃ e k, Makes (.uartTxDone n) s e ∧ (port e (4 + n)).notes = r.drop k) ∧
        (uMode d n = 3 → u.frames = [] → (port d (4 + n)).notes = [] → u.flow = [] → u.tx = [] → ∃ e, Makes (.uartTxDone n) s e ∧
        uartOf e n = { u with sending := none } ∧ e.obj = d.obj) ∧
        (∀ c r, uMode d n = 3 → u.frames = [] → (port d (4 + n)).notes = [] → u.flow = [] → u.tx = c :: r → oGet d ix 0x12 ≠ 1 →
          ∃ e, Makes (.uartTxDone n) s e ∧ uartOf e n = { u with sending := some (charBits d n c), tx := r } ∧ e.obj = d.obj)) ∧
      (uMode d n ≠ 0 → Makes (.falseStart n) s (oSet d ix 0x19 (min (topOf ix 0x19) (oGet d ix 0x19 + 1)))) ∧
      (uMode d n = 0 → Makes (.falseStart n) s d)) ∧
    (d.power.phase = .asleep → (uMode d n ≠ 0 ∧ uf d n 0x0D = 1 →
        Makes (.falseStart n) s (oSet d ix 0x19 (min (topOf ix 0x19) (oGet d ix 0x19 + 1)))) ∧
      (uMode d n = 0 ∨ uf d n 0x0D ≠ 1 → Makes (.falseStart n) s d)) ∧
    (u.sending = none → ∀ k, txLine d n k = true) ∧
    (∀ l k, u.sending = some l → txLine d n k = (l[k]?).getD true) ∧
    ∀ c k, let w := uBits d n
      let line (j : Nat) : Bool := ((charBits d n c)[j]?).getD true
      (charBits d n c).length = 1 + w + (if uParity d n = 0 then 0 else 1) + (if uMode d n = 1 then 1 else uf d n 6) ∧
      (line 0 = false ∧ (k < w → line (1 + k) = bitOf c k)) ∧
      (uParity d n = 0 → w < k → line k = true) ∧
      (uParity d n ≠ 0 → w + 1 < k → line k = true) ∧
      (uParity d n ≠ 0 → line (w + 1) = (decide (((List.range w).filter (bitOf c)).length % 2 = 1) != (uParity d n != 1)))

/-! ### Power, reset, the TAP -/

/-- 12 R360, 23 R679-R690, R694, R703-R705: a reset gives every object its default, with its kind as RESET_CAUSE, and keeps only the TAP, the level of CLRCV, MON_FLAGS of a supply-monitor reset under way and, for a warm reset with RETAIN 1, the
contents of Tuber; during a reset, and while the answer to an accepted RESET_REQ leaves, the cause of highest precedence stands. The release starts the device, or stops it when the fuse check fails. A write of RESET_REQ resets after its response, a
SLEEP write puts an idle device to sleep, and an enabled source wakes it. A voltage read back is shown, and more than 15 mV away, or not acknowledged, is a record. A TAP instruction
stands in the instruction register; SAMPLE captures the levels of the functions whatever instruction stood before, EXTEST those of the inputs. The model's choices here are log entries 7, 8, 10, 11, 12, 36, 53. -/
def Obligations.PowerResetAndTap : Prop :=
  ∀ s : State,
    let d := s.dev
    let fresh (d : Dev) (k : Nat) (keep : Bool) : Dev := oSet { Dev.reset with
      free := d.free, tap := d.tap, analog := { Dev.reset.analog with clrPin := d.analog.clrPin }
      tuber := { Dev.reset.tuber with mem := if keep = true then d.tuber.mem else [] }
      power := ⟨.held k, none, false, [], keep, 0⟩ } 0x0010 0x04 k
    let retain (d : Dev) : Bool := rs d 0x6840 0x01 == 1
    (Awake s ∧ d.power.resetReq = none ∨ d.power.phase = .asleep →
      Makes .powerOn s (fresh d 0 false) ∧ Makes .coldReset s (fresh d 1 false) ∧ Makes .warmReset s (fresh d 2 (retain d)) ∧
      ∀ rail, Makes (.supplyMonitorReset rail) s (oSet (fresh d 3 false) 0x8230 0x08 (2 ^ (rail % 8)))) ∧
    (∀ j ∈ [1, 2], Awake s → d.power.resetReq = some j → Makes .powerOn s (fresh d 0 false) ∧
      Makes .coldReset s (fresh d 1 false) ∧ Makes .warmReset s (fresh d j (j == 2 && retain d))) ∧
    (d.power.phase = .held 2 → Makes .warmReset s (fresh d 2 d.power.kept) ∧ Makes .coldReset s (fresh d 1 false)) ∧
    (d.power.phase = .held 1 → Makes .warmReset s (fresh d 1 false) ∧ Makes .powerOn s (fresh d 0 false)) ∧
    (d.power.phase = .held 0 → Makes .coldReset s (fresh d 0 false)) ∧
    (d.power.phase = .held 3 → ∀ i ∈ [Instr.coldReset, .warmReset], Makes i s (oSet (fresh d 3 false) 0x8230 0x08 (oGet d 0x8230 0x08))) ∧
    (∀ k a b, d.power.phase = .held k → Makes (.resetRelease false a b) s
        (oSet { d with power := { d.power with phase := .stopped } } 0xF000 0x01 0) ∧
      ∃ e, Makes (.resetRelease true a b) s e ∧ e.power.phase = .awake ∧ oGet e 0xF000 0x01 = 1 ∧
        oGet e 0x6850 0x01 = (if a = true then 1 else 3) ∧ oGet e 0x6851 0x01 = (if b = true then 1 else 3) ∧
        (let t := oGet e 0x8230 0x07; if k = 2 then 11000 ≤ t ∧ t ≤ 13000 else 19000 ≤ t ∧ t ≤ 21000) ∧
        ∀ n, n < 4 → uMode d n = 3 → (port e (4 + n)).session = true) ∧
    (∀ f a b, Awake s ∨ d.power.phase = .asleep → Makes (.resetRelease f a b) s d) ∧
    (∀ (p : Nat) (h : Hdr) (inst off : Nat) (e : Dev),
      let wr (o v : Nat) : Frame := writeFrame h 0x8230 o 1 v
      let after (i : Instr) (f : Frame) (ask : Power → Power) (go : Dev → Dev) : Prop := ∃ y,
        Told { e with power := { ask e.power with askers := e.power.askers ++ [p] } } y p f 2 0 [] ∧
        ((∀ q ∈ y.power.askers, answered y q = true) → Makes i s (go y)) ∧
        (answered y p = false → Makes i s y)
      (Alone s p (wr 1 1) inst off e → e.power.resetReq ∈ [none, some 1, some 2] → after (.resetReqCold p h) (wr 1 1) (fun x => { x with resetReq := some 1 }) (fun y => fresh y 1 false)) ∧
      (Alone s p (wr 1 2) inst off e → e.power.resetReq = some 1 → after (.resetReqWarm p h) (wr 1 2) id (fun y => fresh y 1 false)) ∧
      (Alone s p (wr 1 2) inst off e → e.power.resetReq ∈ [none, some 2] →
        after (.resetReqWarm p h) (wr 1 2) (fun x => { x with resetReq := some 2 }) (fun y => fresh y 2 (retain y))) ∧
      (Alone s p (wr 2 1) inst off e → e.power.resetReq = none → mediaState e = 0 ∧
        after (.sleepRequest p h) (wr 2 1) (fun x => { x with sleepReq := true }) enterSleep)) ∧
    (Awake s → (enterSleep d).power.phase = .asleep ∧ (d.power.askers.all (answered d) = false → takePower d = d) ∧
      ∀ k, d.power.resetReq = some k → d.power.askers.all (answered d) = true → takePower d = resetDev d k) ∧
    (d.power.phase = .asleep → bitOf (rs d 0x8230 0x03) 0 = true → Makes .wakeNAssert s (wake d 1)) ∧
    (d.power.phase ≠ .asleep ∨ bitOf (rs d 0x8230 0x03) 0 = false → Makes .wakeNAssert s d) ∧
    (∀ l, l < 4 → d.power.phase = .asleep → bitOf (rs d 0x8230 0x03) (1 + l) = true → Makes (.linkActivityWake l) s (wake d 2)) ∧
    (∀ l, 4 ≤ l ∨ d.power.phase ≠ .asleep ∨ bitOf (rs d 0x8230 0x03) (1 + l) = false → Makes (.linkActivityWake l) s d) ∧
    (d.power.phase = .stopped ∨ d.power.phase = .held 0 ∨ d.power.phase = .held 3 → ∀ a mv, Makes (.avsReadback a mv) s d) ∧
    (Awake s ∨ d.power.phase ∈ [Phase.asleep, .held 1, .held 2] → ∀ mv, let req := oGet d 0x8220 0x03
      (req ≤ mv % 65536 + 15 → mv ≤ req + 15 → mv < 65536 → Makes (.avsReadback true mv) s (oSet d 0x8220 0x04 mv)) ∧
      (req + 15 < mv ∨ mv + 15 < req → ∃ e, Makes (.avsReadback true mv) s e ∧ oGet e 0x8220 0x04 = mv % 65536 ∧
        oGet e 0x8220 0x0C = min (topOf 0x8220 0x0C) (oGet d 0x8220 0x0C + 1) ∧
        ∃ y ∈ e.faults, y.kind = 0x0C ∧ y.detail = 1 ∧ y.addr = req) ∧
      ∃ e, Makes (.avsReadback false mv) s e ∧ oGet e 0x8220 0x04 = oGet d 0x8220 0x04 ∧
        oGet e 0x8220 0x0C = min (topOf 0x8220 0x0C) (oGet d 0x8220 0x0C + 1) ∧
        ∃ y ∈ e.faults, y.kind = 0x0C ∧ y.detail = 0 ∧ y.addr = req) ∧
    (let ir (x : Nat) : Dev := { d with tap := { d.tap with ir := x } };
      Makes .clamp s (ir 0x02) ∧ Makes .highz s (ir 0x03) ∧ Makes .bypass s (ir 0xFF) ∧
      Makes .tapReset s (ir 0xFF)) ∧
    (∀ bits, ∃ x, Makes (.samplePreload bits) s { d with free := d.free + 62, tap := ⟨0x01, bits % 2 ^ 61, x⟩ } ∧
      ∀ b, b < 61 → (∀ y, (∀ t, ballHeld d b t = some y) → bitOf x b = y) ∧
        (35 ≤ b → b < 43 → bitOf x b = bitOf (oGet d 0x7C40 0x0B) (b - 35))) ∧
    (∃ x, Makes .extest s { d with free := d.free + 62, tap := ⟨0x00, d.tap.bsr, x⟩ } ∧
      ∀ b y, b < 61 → ballOut d b = false → (∀ t, ballHeld d b t = some y) → bitOf x b = y) ∧
    ∀ b t, (d.tap.ir = 3 → ballDrive d b t = none) ∧
      (d.tap.ir = 0 ∨ d.tap.ir = 2 → ballOut d b = true → ballDrive d b t = some (bitOf d.tap.bsr b))

/-! ### BNORM, undefined words, the words of instructions -/

/-- 14 R410, 15 R463: BNORM of vectors that lie apart in local data memory, or of a thread that runs no block in Gourd, in a circular buffer or not, shifts each lane by HEAD - g places, to the
left with saturation, to the right with rounding, stores each vector where it stood, moves AD_a on by 16 bytes for each, and leaves HEAD = g and SCALE less the shift. A group that names no memory ends it: the access is refused, and BX is as at issue. -/
def Obligations.BlockNormalisation : Prop :=
  ∀ (s : State) (n t : Nat) (a : BitVec 3) (g : BitVec 4) (n1 : BitVec 8) (ms : List MemSt), Dispatched s n t → n < 20 →
    let r := regsOf s t
    let ad := (aR r 0 a).toNat
    let head : Nat := r.bx.toNat % 16
    let sh : Int := (head : Int) - g.toNat
    let k := n1.toNat + 1
    let clamp (v : Int) : Int := max (-(2 ^ 15)) (min (2 ^ 15 - 1) v)
    let norm (x : BitVec 16) : BitVec 16 := BitVec.ofInt 16 (clamp (if 0 ≤ sh then x.toInt * 2 ^ sh.toNat else rndConv x.toInt (-sh).toNat))
    let place (i : Nat) : Nat := (aR ((rangeFrom 0 i).foldl (fun q _ => postMod q a 16) r) 0 a).toNat
    let vec (m : AMap Byte) (x : Nat) : BitVec 128 := BitVec.ofNat 128 (fromLE (mread m x 16))
    let apart : Prop := ∀ i j, i < k → j < k → i ≠ j → place i + 16 ≤ place j ∨ place j + 16 ≤ place i
    let normed (old new : AMap Byte) (base : Nat) : Prop :=
      (∀ i l, i < k → l < 8 → lane (vec new (place i - base)) l = norm (lane (vec old (place i - base)) l)) ∧
      (∀ b, (∀ i, i < k → b < place i - base ∨ place i - base + 16 ≤ b) → mget 0#8 new b = mget 0#8 old b)
    let rest (q : Regs) : Prop :=
        aR q 0 a = BitVec.ofNat 32 (place k) ∧ (k = 1 → aR q 0 a = stepped r a 16) ∧ (aR r 2 a = 0 → aR q 0 a = BitVec.ofNat 32 (ad + 16 * k)) ∧
        (∀ x, x ≠ a → aR q 0 x = aR r 0 x) ∧
        (q.bx.toNat : Int) = (((r.bx.toNat / 256 % 256 : Nat) : Int) - sh) % 256 * 256 + g.toNat ∧
        NextPc r q ∧ { q with ad := r.ad, bx := r.bx, pc := r.pc, rcnt := r.rcnt } = r
    (apart → (∀ i, i < k → place i % 16 = 0 ∧ place i + 16 ≤ 0x20000 ∧ constKept s.dev n ≤ place i) →
      ∃ u, Answers (.bnorm n a g n1 ms) s u ∧ OnlyRegs (modCore s.dev n (fun c => { c with mem := (coreOf u.dev n).mem })) u.dev n t ∧
        normed (coreOf s.dev n).mem (coreOf u.dev n).mem 0 ∧ rest (regsOf u t)) ∧
    (apart → (coreOf s.dev n).txn = none → ms = [] → (∀ i, i < k → 0x40000000 ≤ place i ∧ place i + 16 ≤ 0x42000000 ∧
        ∀ x ∈ [place i - 0x40000000, place i - 0x40000000 + 8], storeOk s.dev n x 8 = true ∧ winAllows s.dev n x 8 0 = true ∧ isPoisoned s.dev x = false) →
      ∃ u, Answers (.bnorm n a g n1 ms) s u ∧ OnlyRegs { s.dev with gourd := { s.dev.gourd with mem := u.dev.gourd.mem } } u.dev n t ∧
        normed s.dev.gourd.mem u.dev.gourd.mem 0x40000000 ∧ rest (regsOf u t)) ∧
    (0x20000 ≤ ad → ad < 0x40000000 → ∃ u, Answers (.bnorm n a g n1 ms) s u ∧ coreFrozen u.dev n = true ∧
      (regsOf u t).bx = r.bx ∧ NextPc r (regsOf u t) ∧ aR (regsOf u t) 0 a = stepped r a 16 ∧ (coreOf u.dev n).mem = (coreOf s.dev n).mem ∧
      u.dev.gourd = s.dev.gourd)

/-- 14 R426, 04 R143, 15 R439-R441: an undefined word, and a form with a field outside its values, is not performed: the refusal counts, the core shows the PC and kind 1, and a core
that is not frozen freezes under cause 5; the registers are unchanged but for PC and RCNT. The words of the spec's encoding tables decode to their instructions.
The model's choices here are log entry 5. -/
def Obligations.UndefinedWordsAreRefused : Prop :=
  (∀ (i : Instr) (s : State) (n t : Nat), i.core = some n → i = .undefinedInstruction n ∨ (i.fieldsOk = false ∧ ∀ k, i ≠ .kUndefined n k) →
    Dispatched s n t → n < 20 →
    let r := regsOf s t
    ∃ u, Answers i s u ∧ oGet u.dev 0x5300 0x02 = min (topOf 0x5300 0x02) (oGet s.dev 0x5300 0x02 + 1) ∧
      oGet u.dev (0x5000 + 0x20 * n) 0x07 = r.pc.toNat ∧ oGet u.dev (0x5000 + 0x20 * n) 0x09 = 1 ∧ coreFrozen u.dev n = true ∧
      (coreFrozen s.dev n = false → oGet u.dev 0x1020 (n + 1) = 5 ∧
        ∃ y ∈ u.dev.faults, y.kind = 8 ∧ y.unit = 0x40 + n ∧ y.detail = 5) ∧
      (coreFrozen s.dev n = true → u.dev.faults = s.dev.faults) ∧
      NextPc r (regsOf u t) ∧ { regsOf u t with pc := r.pc, rcnt := r.rcnt } = r ∧ (∀ x, x ≠ t → thr u.dev x = thr s.dev x) ∧
      u.dev.gourd = s.dev.gourd ∧ ∀ c, (coreOf u.dev c).mem = (coreOf s.dev c).mem) ∧
  decodeMarrow 3 0x00000000 [] = .kEnd 3 ∧ decodeMarrow 3 0x0C840002 [] = .subi 3 4 4 2 ∧
  decodeMarrow 3 0x74700201 [] = .stp 3 3 false 0 0x201 ∧ decodeMarrow 3 0x00800000 [] = .fenceI 3 ∧
  decodeMarrow 3 0xB8000000 [] = .aclr 3 0 ∧ decodeMarrow 3 0xFC000000 [] = .undefinedInstruction 3

/-- 15 R439-R464: the word of every Marrow instruction whose fields fit its form decodes to that instruction, with every operand and for any memory statuses.
The model's choices here are log entry 5. -/
def Obligations.InstructionWordsDecode : Prop :=
  ∀ (i : Instr) (n : Nat) (w : Word), i.core = some n → i.fieldsOk = true → encodeMarrow i = some w →
    decodeMarrow n w (memOf i) = i

/-! ### Steps and reset -/

/-- Every command and every step keep the canonical form of every byte memory (shared memory, sample memory, the local memories of the cores): cells in rising order of
address, none equal to what an unlisted address reads as. 13 R366, 12 R335 and 14 R420 give the memories; the form is the model's own. The model's choices here are log entry 8. -/
def Obligations.StepsKeepMemoriesCanonical : Prop :=
  let canonical (d : Dev) : Prop := mwf 0#8 d.gourd.mem = true ∧ mwf 0#8 d.tuber.mem = true ∧ ∀ n, mwf 0#8 (coreOf d n).mem = true
  (∀ (i : Instr) (s t : State), canonical s.dev → exec i s = .next t → canonical t.dev) ∧
  (∀ s t : State, canonical s.dev → step s = .next t → canonical t.dev)

/-- A step on a queue with a command at its front is that command's effect on the state with the queue's rest; on an empty queue the block idles (the model's choice,
log entry 2). The model's choices here are log entries 1, 2. -/
def Obligations.StepRunsTheFrontCommand : Prop :=
  (∀ (c : Instr) (r : List Instr) (d : Dev), step ⟨c :: r, d⟩ = exec c ⟨r, d⟩) ∧ ∀ d : Dev, step ⟨[], d⟩ = .next ⟨[], d⟩

/-- 04 R105, 14 R400, 23 R681-R683, R687: every command answers a next state and leaves the queue of the others alone. While the device is held in reset or asleep, only resets, the release, the wake
sources, the characters, false starts and conversions of what works in sleep, the answer of the supply, the sense scan, pin levels and the TAP act. Right after reset the device is held by a power-on reset, every object
and every configuration value has its default, no port has a session, nothing is logged or staged, every thread is disabled with its initial registers, and every memory is empty.
The model's choices here are log entries 1, 7, 8, 10. -/
def Obligations.CommandsAnswerAndResetHolds : Prop :=
  (∀ (i : Instr) (s : State), ∃ t, exec i s = .next t ∧ t.pending = s.pending) ∧
  (∀ (i : Instr) (s : State), ¬ Awake s →
    (match i with
      | .powerOn | .supplyMonitorReset _ | .coldReset | .warmReset | .resetRelease _ _ _ | .wakeNAssert | .linkActivityWake _
      | .uartCharRx _ _ _ _ | .falseStart _ | .avsReadback _ _ | .senseScan | .senseCoarseReady _ _ _ | .senseConversion _ _ _ | .strikeItemEntry
      | .tinEdge _ _ _ | .clrcvAssert | .clrcvRelease | .tapReset | .extest | .samplePreload _ | .clamp | .highz | .bypass => False
      | _ => True) → exec i s = .next s) ∧
  (let d := State.reset.dev;
    State.reset.pending = [] ∧ d.power.phase = .held 0 ∧ (∀ i b k, oGet d i b k = defaultAt (okey i b k)) ∧
      (∀ i b k, rs d i b k = defaultAt (okey i b k)) ∧ oGet d 0x0010 4 = 0 ∧ mediaState d = 0 ∧ d.faults = [] ∧ d.live = [] ∧
      d.ver.stage = .idle ∧ d.ver.staging = none ∧ d.ver.previous = none ∧ d.ver.active.num = 0 ∧
      (∀ p, (port d p).session = false ∧ (port d p).outq = [] ∧ (port d p).subs = []) ∧
      (∀ t, (thr d t).st = .disabled ∧ (thr d t).regs.st = 0 ∧ (thr d t).regs.bx = 0xF ∧ (thr d t).regs.pc = 0 ∧
        ∀ x, gR (thr d t).regs x = 0 ∧ aR (thr d t).regs 0 (x.extractLsb' 0 3) = 0) ∧
      (∀ n a, mget 0#8 (coreOf d n).mem a = 0#8 ∧ progWord d n 0 a = 0#32 ∧ progWord d n 1 a = 0#32) ∧
      (∀ a, mget 0#8 d.gourd.mem a = 0#8 ∧ mget 0#8 d.tuber.mem a = 0#8) ∧
      mwf 0#8 d.gourd.mem = true ∧ mwf 0#8 d.tuber.mem = true ∧ d.gourd.poison = [] ∧
      (∀ u, unitSt d u = if u ∈ [8, 17, 26, 35, 0x44, 0x49, 0x4E, 0x53] then 1 else 0) ∧ d.tap.ir = 0xFF)
end

