-- ==== Sys2Proof/Laws/Map.lean ====
section
/-!
SUPPORT. Sys2Proof/Laws/Map.lean: what reads and writes of sparse maps do: a write is read back, leaves every other key
alone, and keeps the canonical form (keys strictly rising, no value that an unlisted key reads as).
-/
namespace Sys2Proof.Laws
open Sys2Proof.Machine

variable {α : Type}

/-! ### Reads after writes -/

@[simp] theorem mget_nil (d : α) (a : Nat) : mget d [] a = d := rfl

theorem mget_mdel_self (d : α) (m : AMap α) (a : Nat) : mget d (mdel m a) a = d := by
  induction m with
  | nil => rfl
  | cons c r ih =>
    obtain ⟨k, v⟩ := c
    by_cases h : a = k <;> simp [mdel, h, mget]
    · simpa [h] using ih
    · simpa [h] using ih

theorem mget_mdel_other (d : α) (m : AMap α) (a b : Nat) (h : b ≠ a) : mget d (mdel m a) b = mget d m b := by
  induction m with
  | nil => rfl
  | cons c r ih =>
    obtain ⟨k, v⟩ := c
    by_cases hk : a = k
    · subst hk; simp [mdel, mget, h, ih]
    · simp [mdel, mget, hk, ih]

theorem mget_mins_self (d : α) (m : AMap α) (a : Nat) (w : α) : mget d (mins m a w) a = w := by
  induction m with
  | nil => simp [mins, mget]
  | cons c r ih =>
    obtain ⟨k, v⟩ := c
    by_cases h : a = k
    · simp [mins, mget, h]
    · by_cases h2 : a < k <;> simp [mins, mget, h, h2, ih]

theorem mget_mins_other (d : α) (m : AMap α) (a b : Nat) (w : α) (h : b ≠ a) :
    mget d (mins m a w) b = mget d m b := by
  induction m with
  | nil => simp [mins, mget, h]
  | cons c r ih =>
    obtain ⟨k, v⟩ := c
    by_cases hk : a = k
    · subst hk; simp [mins, mget, h]
    · by_cases h2 : a < k <;> simp [mins, mget, hk, h2, ih, h]

@[simp] theorem mget_mput_self [DecidableEq α] (d : α) (m : AMap α) (a : Nat) (v : α) : mget d (mput d m a v) a = v := by
  unfold mput; split
  · next h => rw [mget_mdel_self, h]
  · exact mget_mins_self ..

theorem mget_mput_other [DecidableEq α] (d : α) (m : AMap α) (a b : Nat) (v : α) (h : b ≠ a) :
    mget d (mput d m a v) b = mget d m b := by
  unfold mput; split
  · exact mget_mdel_other _ _ _ _ h
  · exact mget_mins_other _ _ _ _ _ h

/-- The same where the map's unlisted keys read by their own defaults. -/
theorem mget_mput_elsewhere [DecidableEq α] (e d : α) (m : AMap α) (a b : Nat) (v : α) (h : b ≠ a) :
    mget e (mput d m a v) b = mget e m b := by
  unfold mput; split
  · exact mget_mdel_other _ _ _ _ h
  · exact mget_mins_other _ _ _ _ _ h

theorem mget_mput [DecidableEq α] (d : α) (m : AMap α) (a b : Nat) (v : α) :
    mget d (mput d m a v) b = if b = a then v else mget d m b := by
  by_cases h : b = a
  · subst h; simp
  · rw [if_neg h, mget_mput_other _ _ _ _ _ h]

@[simp] theorem mget_mmod_self [DecidableEq α] (d : α) (m : AMap α) (a : Nat) (f : α → α) :
    mget d (mmod d m a f) a = f (mget d m a) := mget_mput_self ..

theorem mget_mmod_other [DecidableEq α] (d : α) (m : AMap α) (a b : Nat) (f : α → α) (h : b ≠ a) :
    mget d (mmod d m a f) b = mget d m b := mget_mput_other _ _ _ _ _ h

theorem mget_mmod [DecidableEq α] (d : α) (m : AMap α) (a b : Nat) (f : α → α) :
    mget d (mmod d m a f) b = if b = a then f (mget d m a) else mget d m b := mget_mput ..

/-! ### Values listed -/

theorem mfind_eq (d : α) (m : AMap α) (a : Nat) : (mfind m a).getD d = mget d m a := by
  induction m with
  | nil => rfl
  | cons c r ih =>
    obtain ⟨k, v⟩ := c
    by_cases h : a = k <;> simp [mfind, mget, h]
    simpa [h] using ih

theorem mset_eq [DecidableEq α] (d : α) (m : AMap α) (a : Nat) (v : α) : mset d m a v = mput d m a v := rfl

/-! ### The canonical form -/

theorem mabove_trans {a b : Nat} {m : AMap α} (h : a < b) (hb : mabove b m = true) : mabove a m = true := by
  cases m with
  | nil => rfl
  | cons c r => obtain ⟨k, v⟩ := c; simp [mabove] at *; omega

theorem mwf_cons [DecidableEq α] (d : α) (k : Nat) (v : α) (r : AMap α) :
    mwf d ((k, v) :: r) = true ↔ mabove k r = true ∧ v ≠ d ∧ mwf d r = true := by
  simp [mwf, and_assoc]

theorem mabove_mdel {a k : Nat} {m : AMap α} [DecidableEq α] (d : α) (hw : mwf d m = true) (h : mabove k m = true) :
    mabove k (mdel m a) = true := by
  induction m with
  | nil => rfl
  | cons c r ih =>
    obtain ⟨b, v⟩ := c
    rw [mwf_cons] at hw
    by_cases hb : a = b
    · simp only [mdel, hb, ↓reduceIte]
      have := mabove_trans (by simpa [mabove] using h) hw.1
      simpa [hb] using ih hw.2.2 this
    · simpa [mdel, hb, mabove] using h

theorem mwf_mdel [DecidableEq α] (d : α) {m : AMap α} (a : Nat) (hw : mwf d m = true) : mwf d (mdel m a) = true := by
  induction m with
  | nil => rfl
  | cons c r ih =>
    obtain ⟨b, v⟩ := c
    have h := hw
    rw [mwf_cons] at h
    by_cases hb : a = b
    · simpa [mdel, hb] using (hb ▸ ih h.2.2)
    · simp only [mdel, hb, ↓reduceIte]
      rw [mwf_cons]
      exact ⟨mabove_mdel d h.2.2 h.1, h.2.1, ih h.2.2⟩

theorem mabove_mins {a k : Nat} {m : AMap α} (v : α) (hk : k < a) (h : mabove k m = true) :
    mabove k (mins m a v) = true := by
  cases m with
  | nil => simpa [mins, mabove] using hk
  | cons c r =>
    obtain ⟨b, w⟩ := c
    by_cases hb : a = b
    · simpa [mins, hb, mabove] using h
    · by_cases h2 : a < b
      · simpa [mins, hb, h2, mabove] using hk
      · simpa [mins, hb, h2, mabove] using h

theorem mwf_mins [DecidableEq α] (d : α) {m : AMap α} (a : Nat) {v : α} (hv : v ≠ d) (hw : mwf d m = true) :
    mwf d (mins m a v) = true := by
  induction m with
  | nil => simp [mins, mwf, mabove, hv]
  | cons c r ih =>
    obtain ⟨b, w⟩ := c
    have h := hw
    rw [mwf_cons] at h
    by_cases hb : a = b
    · subst hb; simp only [mins, ↓reduceIte]; rw [mwf_cons]; exact ⟨h.1, hv, h.2.2⟩
    · by_cases h2 : a < b
      · simp only [mins, hb, h2, ↓reduceIte]
        rw [mwf_cons]
        exact ⟨by simpa [mabove] using h2, hv, hw⟩
      · simp only [mins, hb, h2, ↓reduceIte]
        rw [mwf_cons]
        exact ⟨mabove_mins _ (by omega) h.1, h.2.1, ih h.2.2⟩

/-- Every write keeps the canonical form. -/
theorem mwf_mput [DecidableEq α] (d : α) {m : AMap α} (a : Nat) (v : α) (hw : mwf d m = true) :
    mwf d (mput d m a v) = true := by
  unfold mput; split
  · exact mwf_mdel d a hw
  · next h => exact mwf_mins d a h hw

theorem mwf_mmod [DecidableEq α] (d : α) {m : AMap α} (a : Nat) (f : α → α) (hw : mwf d m = true) :
    mwf d (mmod d m a f) = true := mwf_mput d a _ hw

theorem mabove_filter (p : Nat × α → Bool) [DecidableEq α] (d : α) {k : Nat} {m : AMap α} (hw : mwf d m = true)
    (h : mabove k m = true) : mabove k (m.filter p) = true := by
  induction m with
  | nil => rfl
  | cons c r ih =>
    obtain ⟨b, v⟩ := c
    rw [mwf_cons] at hw
    by_cases hp : p (b, v) = true
    · simpa [List.filter, hp, mabove] using h
    · simp only [Bool.not_eq_true] at hp
      simp only [List.filter, hp]
      exact ih hw.2.2 (mabove_trans (by simpa [mabove] using h) hw.1)

/-- Dropping entries keeps it. -/
theorem mwf_filter (p : Nat × α → Bool) [DecidableEq α] (d : α) {m : AMap α} (hw : mwf d m = true) :
    mwf d (m.filter p) = true := by
  induction m with
  | nil => rfl
  | cons c r ih =>
    obtain ⟨b, v⟩ := c
    rw [mwf_cons] at hw
    by_cases hp : p (b, v) = true
    · simp only [List.filter, hp]; rw [mwf_cons]
      exact ⟨mabove_filter p d hw.2.2 hw.1, hw.2.1, ih hw.2.2⟩
    · simp only [Bool.not_eq_true] at hp
      simpa [List.filter, hp] using ih hw.2.2

/-! ### Byte strings -/

/-- Storing a byte string keeps the canonical form. -/
theorem mwf_mwrite {m : AMap Byte} (a : Nat) (l : List Byte) (hw : mwf 0#8 m = true) : mwf 0#8 (mwrite m a l) = true := by
  induction l generalizing m a with
  | nil => exact hw
  | cons b r ih => exact ih (a + 1) (mwf_mput _ _ _ hw)

/-- A byte after a store: the byte stored there, or what it was. -/
theorem mget_mwrite (m : AMap Byte) (a b : Nat) (l : List Byte) :
    mget 0#8 (mwrite m a l) b = if a ≤ b ∧ b < a + l.length then (l[b - a]?).getD 0#8 else mget 0#8 m b := by
  induction l generalizing m a with
  | nil => simp only [mwrite, List.length_nil, Nat.add_zero]; rw [if_neg (by omega)]
  | cons x r ih =>
    rw [mwrite, ih, mget_mput]
    simp only [List.length_cons]
    by_cases h1 : a + 1 ≤ b ∧ b < a + 1 + r.length
    · rw [if_pos h1, if_pos (by omega)]
      have : b - a = (b - (a + 1)) + 1 := by omega
      rw [this, List.getElem?_cons_succ]
    · rw [if_neg h1]
      by_cases h2 : b = a
      · subst h2; rw [if_pos rfl, if_pos (by omega)]; simp
      · rw [if_neg h2, if_neg (by omega)]

/-- A store of other bytes leaves a byte alone. -/
theorem mget_mwrite_other (m : AMap Byte) (a b : Nat) (l : List Byte) (h : b < a ∨ a + l.length ≤ b) :
    mget 0#8 (mwrite m a l) b = mget 0#8 m b := by rw [mget_mwrite, if_neg (by omega)]

@[simp] theorem mread_length (m : AMap Byte) (a n : Nat) : (mread m a n).length = n := by
  induction n generalizing a with
  | zero => rfl
  | succ n ih => simp [mread, ih]

theorem mread_mwrite_other (m : AMap Byte) (a b n : Nat) (l : List Byte) (h : b + n ≤ a ∨ a + l.length ≤ b) :
    mread (mwrite m a l) b n = mread m b n := by
  induction n generalizing b with
  | zero => rfl
  | succ n ih => simp only [mread]; rw [mget_mwrite_other _ _ _ _ (by omega), ih _ (by omega)]

theorem mread_mput_above (m : AMap Byte) (a b n : Nat) (v : Byte) (h : a < b) :
    mread (mput 0#8 m a v) b n = mread m b n := by
  induction n generalizing b with
  | zero => rfl
  | succ n ih => simp only [mread]; rw [mget_mput_other _ _ _ _ _ (by omega), ih _ (by omega)]

/-- What was stored is read back. -/
theorem mread_mwrite_self (m : AMap Byte) (a : Nat) (l : List Byte) : mread (mwrite m a l) a l.length = l := by
  induction l generalizing m a with
  | nil => rfl
  | cons x r ih =>
    simp only [mwrite, List.length_cons, mread]
    rw [ih, mget_mwrite_other _ _ _ _ (by omega), mget_mput_self]

theorem toLE_length (n v : Nat) : (toLE n v).length = n := by
  induction n generalizing v with
  | zero => rfl
  | succ n ih => simp [toLE, ih]

/-- The number that the n little-endian bytes of v spell. -/
theorem fromLE_toLE (n v : Nat) : fromLE (toLE n v) = v % 256 ^ n := by
  induction n generalizing v with
  | zero => simp [toLE, fromLE, Nat.mod_one]
  | succ n ih =>
    simp only [toLE, fromLE, ih]
    have h : (BitVec.ofNat 8 v).toNat = v % 256 := by simp
    rw [h, Nat.pow_succ, Nat.mul_comm (256 ^ n) 256, Nat.mod_mul]

end Sys2Proof.Laws
end

