-- ==== Sys2Proof/Laws/State.lean ====
section
/-!
SUPPORT. Sys2Proof/Laws/State.lean: for each named update of the device, one lemma per field and per reading that it
leaves alone (true by rfl), and what the updated record reads as.
-/
namespace Sys2Proof.Laws
open Sys2Proof.Machine

/-! ### oSet -/

@[simp] theorem oSet_ver (d : Dev) (i b v k : Nat) : (oSet d i b v k).ver = d.ver := by rfl
@[simp] theorem oSet_ports (d : Dev) (i b v k : Nat) : (oSet d i b v k).ports = d.ports := by rfl
@[simp] theorem oSet_live (d : Dev) (i b v k : Nat) : (oSet d i b v k).live = d.live := by rfl
@[simp] theorem oSet_free (d : Dev) (i b v k : Nat) : (oSet d i b v k).free = d.free := by rfl
@[simp] theorem oSet_faults (d : Dev) (i b v k : Nat) : (oSet d i b v k).faults = d.faults := by rfl
@[simp] theorem oSet_cycles (d : Dev) (i b v k : Nat) : (oSet d i b v k).cycles = d.cycles := by rfl
@[simp] theorem oSet_media (d : Dev) (i b v k : Nat) : (oSet d i b v k).media = d.media := by rfl
@[simp] theorem oSet_time (d : Dev) (i b v k : Nat) : (oSet d i b v k).time = d.time := by rfl
@[simp] theorem oSet_gourd (d : Dev) (i b v k : Nat) : (oSet d i b v k).gourd = d.gourd := by rfl
@[simp] theorem oSet_stalk (d : Dev) (i b v k : Nat) : (oSet d i b v k).stalk = d.stalk := by rfl
@[simp] theorem oSet_cores (d : Dev) (i b v k : Nat) : (oSet d i b v k).cores = d.cores := by rfl
@[simp] theorem oSet_units (d : Dev) (i b v k : Nat) : (oSet d i b v k).units = d.units := by rfl
@[simp] theorem oSet_alloc (d : Dev) (i b v k : Nat) : (oSet d i b v k).alloc = d.alloc := by rfl
@[simp] theorem oSet_tuber (d : Dev) (i b v k : Nat) : (oSet d i b v k).tuber = d.tuber := by rfl
@[simp] theorem oSet_links (d : Dev) (i b v k : Nat) : (oSet d i b v k).links = d.links := by rfl
@[simp] theorem oSet_saps (d : Dev) (i b v k : Nat) : (oSet d i b v k).saps = d.saps := by rfl
@[simp] theorem oSet_analog (d : Dev) (i b v k : Nat) : (oSet d i b v k).analog = d.analog := by rfl
@[simp] theorem oSet_sense (d : Dev) (i b v k : Nat) : (oSet d i b v k).sense = d.sense := by rfl
@[simp] theorem oSet_timers (d : Dev) (i b v k : Nat) : (oSet d i b v k).timers = d.timers := by rfl
@[simp] theorem oSet_uarts (d : Dev) (i b v k : Nat) : (oSet d i b v k).uarts = d.uarts := by rfl
@[simp] theorem oSet_power (d : Dev) (i b v k : Nat) : (oSet d i b v k).power = d.power := by rfl
@[simp] theorem oSet_ctl (d : Dev) (i b v k : Nat) : (oSet d i b v k).ctl = d.ctl := by rfl
@[simp] theorem oSet_therm (d : Dev) (i b v k : Nat) : (oSet d i b v k).therm = d.therm := by rfl
@[simp] theorem oSet_tap (d : Dev) (i b v k : Nat) : (oSet d i b v k).tap = d.tap := by rfl
@[simp] theorem oSet_spares (d : Dev) (i b v k : Nat) : (oSet d i b v k).spares = d.spares := by rfl
@[simp] theorem rs_oSet (d : Dev) (i b v k : Nat) (i₂ b₂ k₂ : Nat) : rs (oSet d i b v k) i₂ b₂ k₂ = rs d i₂ b₂ k₂ := by rfl
@[simp] theorem port_oSet (d : Dev) (i b v k : Nat) (q₂ : Nat) : port (oSet d i b v k) q₂ = port d q₂ := by rfl
@[simp] theorem thr_oSet (d : Dev) (i b v k : Nat) (x₂ : Nat) : thr (oSet d i b v k) x₂ = thr d x₂ := by rfl
@[simp] theorem coreOf_oSet (d : Dev) (i b v k : Nat) (x₂ : Nat) : coreOf (oSet d i b v k) x₂ = coreOf d x₂ := by rfl
@[simp] theorem queueOf_oSet (d : Dev) (i b v k : Nat) (x₂ : Nat) : queueOf (oSet d i b v k) x₂ = queueOf d x₂ := by rfl
@[simp] theorem flowOf_oSet (d : Dev) (i b v k : Nat) (x₂ : Nat) : flowOf (oSet d i b v k) x₂ = flowOf d x₂ := by rfl
@[simp] theorem uartOf_oSet (d : Dev) (i b v k : Nat) (x₂ : Nat) : uartOf (oSet d i b v k) x₂ = uartOf d x₂ := by rfl
@[simp] theorem linkOf_oSet (d : Dev) (i b v k : Nat) (x₂ : Nat) : linkOf (oSet d i b v k) x₂ = linkOf d x₂ := by rfl
@[simp] theorem cnt_oSet (d : Dev) (i b v k : Nat) (x₂ : Nat) : cnt (oSet d i b v k) x₂ = cnt d x₂ := by rfl

/-! ### bump -/

@[simp] theorem bump_ver (d : Dev) (i b n k : Nat) : (bump d i b n k).ver = d.ver := by rfl
@[simp] theorem bump_ports (d : Dev) (i b n k : Nat) : (bump d i b n k).ports = d.ports := by rfl
@[simp] theorem bump_live (d : Dev) (i b n k : Nat) : (bump d i b n k).live = d.live := by rfl
@[simp] theorem bump_free (d : Dev) (i b n k : Nat) : (bump d i b n k).free = d.free := by rfl
@[simp] theorem bump_faults (d : Dev) (i b n k : Nat) : (bump d i b n k).faults = d.faults := by rfl
@[simp] theorem bump_cycles (d : Dev) (i b n k : Nat) : (bump d i b n k).cycles = d.cycles := by rfl
@[simp] theorem bump_media (d : Dev) (i b n k : Nat) : (bump d i b n k).media = d.media := by rfl
@[simp] theorem bump_time (d : Dev) (i b n k : Nat) : (bump d i b n k).time = d.time := by rfl
@[simp] theorem bump_gourd (d : Dev) (i b n k : Nat) : (bump d i b n k).gourd = d.gourd := by rfl
@[simp] theorem bump_stalk (d : Dev) (i b n k : Nat) : (bump d i b n k).stalk = d.stalk := by rfl
@[simp] theorem bump_cores (d : Dev) (i b n k : Nat) : (bump d i b n k).cores = d.cores := by rfl
@[simp] theorem bump_units (d : Dev) (i b n k : Nat) : (bump d i b n k).units = d.units := by rfl
@[simp] theorem bump_alloc (d : Dev) (i b n k : Nat) : (bump d i b n k).alloc = d.alloc := by rfl
@[simp] theorem bump_tuber (d : Dev) (i b n k : Nat) : (bump d i b n k).tuber = d.tuber := by rfl
@[simp] theorem bump_links (d : Dev) (i b n k : Nat) : (bump d i b n k).links = d.links := by rfl
@[simp] theorem bump_saps (d : Dev) (i b n k : Nat) : (bump d i b n k).saps = d.saps := by rfl
@[simp] theorem bump_analog (d : Dev) (i b n k : Nat) : (bump d i b n k).analog = d.analog := by rfl
@[simp] theorem bump_sense (d : Dev) (i b n k : Nat) : (bump d i b n k).sense = d.sense := by rfl
@[simp] theorem bump_timers (d : Dev) (i b n k : Nat) : (bump d i b n k).timers = d.timers := by rfl
@[simp] theorem bump_uarts (d : Dev) (i b n k : Nat) : (bump d i b n k).uarts = d.uarts := by rfl
@[simp] theorem bump_power (d : Dev) (i b n k : Nat) : (bump d i b n k).power = d.power := by rfl
@[simp] theorem bump_ctl (d : Dev) (i b n k : Nat) : (bump d i b n k).ctl = d.ctl := by rfl
@[simp] theorem bump_therm (d : Dev) (i b n k : Nat) : (bump d i b n k).therm = d.therm := by rfl
@[simp] theorem bump_tap (d : Dev) (i b n k : Nat) : (bump d i b n k).tap = d.tap := by rfl
@[simp] theorem bump_spares (d : Dev) (i b n k : Nat) : (bump d i b n k).spares = d.spares := by rfl
@[simp] theorem rs_bump (d : Dev) (i b n k : Nat) (i₂ b₂ k₂ : Nat) : rs (bump d i b n k) i₂ b₂ k₂ = rs d i₂ b₂ k₂ := by rfl
@[simp] theorem port_bump (d : Dev) (i b n k : Nat) (q₂ : Nat) : port (bump d i b n k) q₂ = port d q₂ := by rfl
@[simp] theorem thr_bump (d : Dev) (i b n k : Nat) (x₂ : Nat) : thr (bump d i b n k) x₂ = thr d x₂ := by rfl
@[simp] theorem coreOf_bump (d : Dev) (i b n k : Nat) (x₂ : Nat) : coreOf (bump d i b n k) x₂ = coreOf d x₂ := by rfl
@[simp] theorem queueOf_bump (d : Dev) (i b n k : Nat) (x₂ : Nat) : queueOf (bump d i b n k) x₂ = queueOf d x₂ := by rfl
@[simp] theorem flowOf_bump (d : Dev) (i b n k : Nat) (x₂ : Nat) : flowOf (bump d i b n k) x₂ = flowOf d x₂ := by rfl
@[simp] theorem uartOf_bump (d : Dev) (i b n k : Nat) (x₂ : Nat) : uartOf (bump d i b n k) x₂ = uartOf d x₂ := by rfl
@[simp] theorem linkOf_bump (d : Dev) (i b n k : Nat) (x₂ : Nat) : linkOf (bump d i b n k) x₂ = linkOf d x₂ := by rfl
@[simp] theorem cnt_bump (d : Dev) (i b n k : Nat) (x₂ : Nat) : cnt (bump d i b n k) x₂ = cnt d x₂ := by rfl

/-! ### modPort -/

@[simp] theorem modPort_obj (d : Dev) (p : Nat) (f : Port → Port) : (modPort d p f).obj = d.obj := by rfl
@[simp] theorem modPort_ver (d : Dev) (p : Nat) (f : Port → Port) : (modPort d p f).ver = d.ver := by rfl
@[simp] theorem modPort_live (d : Dev) (p : Nat) (f : Port → Port) : (modPort d p f).live = d.live := by rfl
@[simp] theorem modPort_free (d : Dev) (p : Nat) (f : Port → Port) : (modPort d p f).free = d.free := by rfl
@[simp] theorem modPort_faults (d : Dev) (p : Nat) (f : Port → Port) : (modPort d p f).faults = d.faults := by rfl
@[simp] theorem modPort_cycles (d : Dev) (p : Nat) (f : Port → Port) : (modPort d p f).cycles = d.cycles := by rfl
@[simp] theorem modPort_media (d : Dev) (p : Nat) (f : Port → Port) : (modPort d p f).media = d.media := by rfl
@[simp] theorem modPort_time (d : Dev) (p : Nat) (f : Port → Port) : (modPort d p f).time = d.time := by rfl
@[simp] theorem modPort_gourd (d : Dev) (p : Nat) (f : Port → Port) : (modPort d p f).gourd = d.gourd := by rfl
@[simp] theorem modPort_stalk (d : Dev) (p : Nat) (f : Port → Port) : (modPort d p f).stalk = d.stalk := by rfl
@[simp] theorem modPort_cores (d : Dev) (p : Nat) (f : Port → Port) : (modPort d p f).cores = d.cores := by rfl
@[simp] theorem modPort_units (d : Dev) (p : Nat) (f : Port → Port) : (modPort d p f).units = d.units := by rfl
@[simp] theorem modPort_alloc (d : Dev) (p : Nat) (f : Port → Port) : (modPort d p f).alloc = d.alloc := by rfl
@[simp] theorem modPort_tuber (d : Dev) (p : Nat) (f : Port → Port) : (modPort d p f).tuber = d.tuber := by rfl
@[simp] theorem modPort_links (d : Dev) (p : Nat) (f : Port → Port) : (modPort d p f).links = d.links := by rfl
@[simp] theorem modPort_saps (d : Dev) (p : Nat) (f : Port → Port) : (modPort d p f).saps = d.saps := by rfl
@[simp] theorem modPort_analog (d : Dev) (p : Nat) (f : Port → Port) : (modPort d p f).analog = d.analog := by rfl
@[simp] theorem modPort_sense (d : Dev) (p : Nat) (f : Port → Port) : (modPort d p f).sense = d.sense := by rfl
@[simp] theorem modPort_timers (d : Dev) (p : Nat) (f : Port → Port) : (modPort d p f).timers = d.timers := by rfl
@[simp] theorem modPort_uarts (d : Dev) (p : Nat) (f : Port → Port) : (modPort d p f).uarts = d.uarts := by rfl
@[simp] theorem modPort_power (d : Dev) (p : Nat) (f : Port → Port) : (modPort d p f).power = d.power := by rfl
@[simp] theorem modPort_ctl (d : Dev) (p : Nat) (f : Port → Port) : (modPort d p f).ctl = d.ctl := by rfl
@[simp] theorem modPort_therm (d : Dev) (p : Nat) (f : Port → Port) : (modPort d p f).therm = d.therm := by rfl
@[simp] theorem modPort_tap (d : Dev) (p : Nat) (f : Port → Port) : (modPort d p f).tap = d.tap := by rfl
@[simp] theorem modPort_spares (d : Dev) (p : Nat) (f : Port → Port) : (modPort d p f).spares = d.spares := by rfl
@[simp] theorem oGet_modPort (d : Dev) (p : Nat) (f : Port → Port) (i₂ b₂ k₂ : Nat) : oGet (modPort d p f) i₂ b₂ k₂ = oGet d i₂ b₂ k₂ := by rfl
@[simp] theorem rs_modPort (d : Dev) (p : Nat) (f : Port → Port) (i₂ b₂ k₂ : Nat) : rs (modPort d p f) i₂ b₂ k₂ = rs d i₂ b₂ k₂ := by rfl
@[simp] theorem thr_modPort (d : Dev) (p : Nat) (f : Port → Port) (x₂ : Nat) : thr (modPort d p f) x₂ = thr d x₂ := by rfl
@[simp] theorem coreOf_modPort (d : Dev) (p : Nat) (f : Port → Port) (x₂ : Nat) : coreOf (modPort d p f) x₂ = coreOf d x₂ := by rfl
@[simp] theorem queueOf_modPort (d : Dev) (p : Nat) (f : Port → Port) (x₂ : Nat) : queueOf (modPort d p f) x₂ = queueOf d x₂ := by rfl
@[simp] theorem flowOf_modPort (d : Dev) (p : Nat) (f : Port → Port) (x₂ : Nat) : flowOf (modPort d p f) x₂ = flowOf d x₂ := by rfl
@[simp] theorem uartOf_modPort (d : Dev) (p : Nat) (f : Port → Port) (x₂ : Nat) : uartOf (modPort d p f) x₂ = uartOf d x₂ := by rfl
@[simp] theorem linkOf_modPort (d : Dev) (p : Nat) (f : Port → Port) (x₂ : Nat) : linkOf (modPort d p f) x₂ = linkOf d x₂ := by rfl
@[simp] theorem cnt_modPort (d : Dev) (p : Nat) (f : Port → Port) (x₂ : Nat) : cnt (modPort d p f) x₂ = cnt d x₂ := by rfl

/-! ### modThr -/

@[simp] theorem modThr_obj (d : Dev) (t : Nat) (f : Thread → Thread) : (modThr d t f).obj = d.obj := by rfl
@[simp] theorem modThr_ver (d : Dev) (t : Nat) (f : Thread → Thread) : (modThr d t f).ver = d.ver := by rfl
@[simp] theorem modThr_ports (d : Dev) (t : Nat) (f : Thread → Thread) : (modThr d t f).ports = d.ports := by rfl
@[simp] theorem modThr_live (d : Dev) (t : Nat) (f : Thread → Thread) : (modThr d t f).live = d.live := by rfl
@[simp] theorem modThr_free (d : Dev) (t : Nat) (f : Thread → Thread) : (modThr d t f).free = d.free := by rfl
@[simp] theorem modThr_faults (d : Dev) (t : Nat) (f : Thread → Thread) : (modThr d t f).faults = d.faults := by rfl
@[simp] theorem modThr_cycles (d : Dev) (t : Nat) (f : Thread → Thread) : (modThr d t f).cycles = d.cycles := by rfl
@[simp] theorem modThr_media (d : Dev) (t : Nat) (f : Thread → Thread) : (modThr d t f).media = d.media := by rfl
@[simp] theorem modThr_time (d : Dev) (t : Nat) (f : Thread → Thread) : (modThr d t f).time = d.time := by rfl
@[simp] theorem modThr_gourd (d : Dev) (t : Nat) (f : Thread → Thread) : (modThr d t f).gourd = d.gourd := by rfl
@[simp] theorem modThr_cores (d : Dev) (t : Nat) (f : Thread → Thread) : (modThr d t f).cores = d.cores := by rfl
@[simp] theorem modThr_units (d : Dev) (t : Nat) (f : Thread → Thread) : (modThr d t f).units = d.units := by rfl
@[simp] theorem modThr_alloc (d : Dev) (t : Nat) (f : Thread → Thread) : (modThr d t f).alloc = d.alloc := by rfl
@[simp] theorem modThr_tuber (d : Dev) (t : Nat) (f : Thread → Thread) : (modThr d t f).tuber = d.tuber := by rfl
@[simp] theorem modThr_links (d : Dev) (t : Nat) (f : Thread → Thread) : (modThr d t f).links = d.links := by rfl
@[simp] theorem modThr_saps (d : Dev) (t : Nat) (f : Thread → Thread) : (modThr d t f).saps = d.saps := by rfl
@[simp] theorem modThr_analog (d : Dev) (t : Nat) (f : Thread → Thread) : (modThr d t f).analog = d.analog := by rfl
@[simp] theorem modThr_sense (d : Dev) (t : Nat) (f : Thread → Thread) : (modThr d t f).sense = d.sense := by rfl
@[simp] theorem modThr_timers (d : Dev) (t : Nat) (f : Thread → Thread) : (modThr d t f).timers = d.timers := by rfl
@[simp] theorem modThr_uarts (d : Dev) (t : Nat) (f : Thread → Thread) : (modThr d t f).uarts = d.uarts := by rfl
@[simp] theorem modThr_power (d : Dev) (t : Nat) (f : Thread → Thread) : (modThr d t f).power = d.power := by rfl
@[simp] theorem modThr_ctl (d : Dev) (t : Nat) (f : Thread → Thread) : (modThr d t f).ctl = d.ctl := by rfl
@[simp] theorem modThr_therm (d : Dev) (t : Nat) (f : Thread → Thread) : (modThr d t f).therm = d.therm := by rfl
@[simp] theorem modThr_tap (d : Dev) (t : Nat) (f : Thread → Thread) : (modThr d t f).tap = d.tap := by rfl
@[simp] theorem modThr_spares (d : Dev) (t : Nat) (f : Thread → Thread) : (modThr d t f).spares = d.spares := by rfl
@[simp] theorem oGet_modThr (d : Dev) (t : Nat) (f : Thread → Thread) (i₂ b₂ k₂ : Nat) : oGet (modThr d t f) i₂ b₂ k₂ = oGet d i₂ b₂ k₂ := by rfl
@[simp] theorem rs_modThr (d : Dev) (t : Nat) (f : Thread → Thread) (i₂ b₂ k₂ : Nat) : rs (modThr d t f) i₂ b₂ k₂ = rs d i₂ b₂ k₂ := by rfl
@[simp] theorem port_modThr (d : Dev) (t : Nat) (f : Thread → Thread) (q₂ : Nat) : port (modThr d t f) q₂ = port d q₂ := by rfl
@[simp] theorem coreOf_modThr (d : Dev) (t : Nat) (f : Thread → Thread) (x₂ : Nat) : coreOf (modThr d t f) x₂ = coreOf d x₂ := by rfl
@[simp] theorem queueOf_modThr (d : Dev) (t : Nat) (f : Thread → Thread) (x₂ : Nat) : queueOf (modThr d t f) x₂ = queueOf d x₂ := by rfl
@[simp] theorem flowOf_modThr (d : Dev) (t : Nat) (f : Thread → Thread) (x₂ : Nat) : flowOf (modThr d t f) x₂ = flowOf d x₂ := by rfl
@[simp] theorem uartOf_modThr (d : Dev) (t : Nat) (f : Thread → Thread) (x₂ : Nat) : uartOf (modThr d t f) x₂ = uartOf d x₂ := by rfl
@[simp] theorem linkOf_modThr (d : Dev) (t : Nat) (f : Thread → Thread) (x₂ : Nat) : linkOf (modThr d t f) x₂ = linkOf d x₂ := by rfl
@[simp] theorem cnt_modThr (d : Dev) (t : Nat) (f : Thread → Thread) (x₂ : Nat) : cnt (modThr d t f) x₂ = cnt d x₂ := by rfl

/-! ### modCore -/

@[simp] theorem modCore_obj (d : Dev) (n : Nat) (f : Core → Core) : (modCore d n f).obj = d.obj := by rfl
@[simp] theorem modCore_ver (d : Dev) (n : Nat) (f : Core → Core) : (modCore d n f).ver = d.ver := by rfl
@[simp] theorem modCore_ports (d : Dev) (n : Nat) (f : Core → Core) : (modCore d n f).ports = d.ports := by rfl
@[simp] theorem modCore_live (d : Dev) (n : Nat) (f : Core → Core) : (modCore d n f).live = d.live := by rfl
@[simp] theorem modCore_free (d : Dev) (n : Nat) (f : Core → Core) : (modCore d n f).free = d.free := by rfl
@[simp] theorem modCore_faults (d : Dev) (n : Nat) (f : Core → Core) : (modCore d n f).faults = d.faults := by rfl
@[simp] theorem modCore_cycles (d : Dev) (n : Nat) (f : Core → Core) : (modCore d n f).cycles = d.cycles := by rfl
@[simp] theorem modCore_media (d : Dev) (n : Nat) (f : Core → Core) : (modCore d n f).media = d.media := by rfl
@[simp] theorem modCore_time (d : Dev) (n : Nat) (f : Core → Core) : (modCore d n f).time = d.time := by rfl
@[simp] theorem modCore_gourd (d : Dev) (n : Nat) (f : Core → Core) : (modCore d n f).gourd = d.gourd := by rfl
@[simp] theorem modCore_stalk (d : Dev) (n : Nat) (f : Core → Core) : (modCore d n f).stalk = d.stalk := by rfl
@[simp] theorem modCore_units (d : Dev) (n : Nat) (f : Core → Core) : (modCore d n f).units = d.units := by rfl
@[simp] theorem modCore_alloc (d : Dev) (n : Nat) (f : Core → Core) : (modCore d n f).alloc = d.alloc := by rfl
@[simp] theorem modCore_tuber (d : Dev) (n : Nat) (f : Core → Core) : (modCore d n f).tuber = d.tuber := by rfl
@[simp] theorem modCore_links (d : Dev) (n : Nat) (f : Core → Core) : (modCore d n f).links = d.links := by rfl
@[simp] theorem modCore_saps (d : Dev) (n : Nat) (f : Core → Core) : (modCore d n f).saps = d.saps := by rfl
@[simp] theorem modCore_analog (d : Dev) (n : Nat) (f : Core → Core) : (modCore d n f).analog = d.analog := by rfl
@[simp] theorem modCore_sense (d : Dev) (n : Nat) (f : Core → Core) : (modCore d n f).sense = d.sense := by rfl
@[simp] theorem modCore_timers (d : Dev) (n : Nat) (f : Core → Core) : (modCore d n f).timers = d.timers := by rfl
@[simp] theorem modCore_uarts (d : Dev) (n : Nat) (f : Core → Core) : (modCore d n f).uarts = d.uarts := by rfl
@[simp] theorem modCore_power (d : Dev) (n : Nat) (f : Core → Core) : (modCore d n f).power = d.power := by rfl
@[simp] theorem modCore_ctl (d : Dev) (n : Nat) (f : Core → Core) : (modCore d n f).ctl = d.ctl := by rfl
@[simp] theorem modCore_therm (d : Dev) (n : Nat) (f : Core → Core) : (modCore d n f).therm = d.therm := by rfl
@[simp] theorem modCore_tap (d : Dev) (n : Nat) (f : Core → Core) : (modCore d n f).tap = d.tap := by rfl
@[simp] theorem modCore_spares (d : Dev) (n : Nat) (f : Core → Core) : (modCore d n f).spares = d.spares := by rfl
@[simp] theorem oGet_modCore (d : Dev) (n : Nat) (f : Core → Core) (i₂ b₂ k₂ : Nat) : oGet (modCore d n f) i₂ b₂ k₂ = oGet d i₂ b₂ k₂ := by rfl
@[simp] theorem rs_modCore (d : Dev) (n : Nat) (f : Core → Core) (i₂ b₂ k₂ : Nat) : rs (modCore d n f) i₂ b₂ k₂ = rs d i₂ b₂ k₂ := by rfl
@[simp] theorem port_modCore (d : Dev) (n : Nat) (f : Core → Core) (q₂ : Nat) : port (modCore d n f) q₂ = port d q₂ := by rfl
@[simp] theorem thr_modCore (d : Dev) (n : Nat) (f : Core → Core) (x₂ : Nat) : thr (modCore d n f) x₂ = thr d x₂ := by rfl
@[simp] theorem queueOf_modCore (d : Dev) (n : Nat) (f : Core → Core) (x₂ : Nat) : queueOf (modCore d n f) x₂ = queueOf d x₂ := by rfl
@[simp] theorem flowOf_modCore (d : Dev) (n : Nat) (f : Core → Core) (x₂ : Nat) : flowOf (modCore d n f) x₂ = flowOf d x₂ := by rfl
@[simp] theorem uartOf_modCore (d : Dev) (n : Nat) (f : Core → Core) (x₂ : Nat) : uartOf (modCore d n f) x₂ = uartOf d x₂ := by rfl
@[simp] theorem linkOf_modCore (d : Dev) (n : Nat) (f : Core → Core) (x₂ : Nat) : linkOf (modCore d n f) x₂ = linkOf d x₂ := by rfl
@[simp] theorem cnt_modCore (d : Dev) (n : Nat) (f : Core → Core) (x₂ : Nat) : cnt (modCore d n f) x₂ = cnt d x₂ := by rfl

/-! ### modQueue -/

@[simp] theorem modQueue_obj (d : Dev) (q : Nat) (f : Queue → Queue) : (modQueue d q f).obj = d.obj := by rfl
@[simp] theorem modQueue_ver (d : Dev) (q : Nat) (f : Queue → Queue) : (modQueue d q f).ver = d.ver := by rfl
@[simp] theorem modQueue_ports (d : Dev) (q : Nat) (f : Queue → Queue) : (modQueue d q f).ports = d.ports := by rfl
@[simp] theorem modQueue_live (d : Dev) (q : Nat) (f : Queue → Queue) : (modQueue d q f).live = d.live := by rfl
@[simp] theorem modQueue_free (d : Dev) (q : Nat) (f : Queue → Queue) : (modQueue d q f).free = d.free := by rfl
@[simp] theorem modQueue_faults (d : Dev) (q : Nat) (f : Queue → Queue) : (modQueue d q f).faults = d.faults := by rfl
@[simp] theorem modQueue_cycles (d : Dev) (q : Nat) (f : Queue → Queue) : (modQueue d q f).cycles = d.cycles := by rfl
@[simp] theorem modQueue_media (d : Dev) (q : Nat) (f : Queue → Queue) : (modQueue d q f).media = d.media := by rfl
@[simp] theorem modQueue_time (d : Dev) (q : Nat) (f : Queue → Queue) : (modQueue d q f).time = d.time := by rfl
@[simp] theorem modQueue_gourd (d : Dev) (q : Nat) (f : Queue → Queue) : (modQueue d q f).gourd = d.gourd := by rfl
@[simp] theorem modQueue_cores (d : Dev) (q : Nat) (f : Queue → Queue) : (modQueue d q f).cores = d.cores := by rfl
@[simp] theorem modQueue_units (d : Dev) (q : Nat) (f : Queue → Queue) : (modQueue d q f).units = d.units := by rfl
@[simp] theorem modQueue_alloc (d : Dev) (q : Nat) (f : Queue → Queue) : (modQueue d q f).alloc = d.alloc := by rfl
@[simp] theorem modQueue_tuber (d : Dev) (q : Nat) (f : Queue → Queue) : (modQueue d q f).tuber = d.tuber := by rfl
@[simp] theorem modQueue_links (d : Dev) (q : Nat) (f : Queue → Queue) : (modQueue d q f).links = d.links := by rfl
@[simp] theorem modQueue_saps (d : Dev) (q : Nat) (f : Queue → Queue) : (modQueue d q f).saps = d.saps := by rfl
@[simp] theorem modQueue_analog (d : Dev) (q : Nat) (f : Queue → Queue) : (modQueue d q f).analog = d.analog := by rfl
@[simp] theorem modQueue_sense (d : Dev) (q : Nat) (f : Queue → Queue) : (modQueue d q f).sense = d.sense := by rfl
@[simp] theorem modQueue_timers (d : Dev) (q : Nat) (f : Queue → Queue) : (modQueue d q f).timers = d.timers := by rfl
@[simp] theorem modQueue_uarts (d : Dev) (q : Nat) (f : Queue → Queue) : (modQueue d q f).uarts = d.uarts := by rfl
@[simp] theorem modQueue_power (d : Dev) (q : Nat) (f : Queue → Queue) : (modQueue d q f).power = d.power := by rfl
@[simp] theorem modQueue_ctl (d : Dev) (q : Nat) (f : Queue → Queue) : (modQueue d q f).ctl = d.ctl := by rfl
@[simp] theorem modQueue_therm (d : Dev) (q : Nat) (f : Queue → Queue) : (modQueue d q f).therm = d.therm := by rfl
@[simp] theorem modQueue_tap (d : Dev) (q : Nat) (f : Queue → Queue) : (modQueue d q f).tap = d.tap := by rfl
@[simp] theorem modQueue_spares (d : Dev) (q : Nat) (f : Queue → Queue) : (modQueue d q f).spares = d.spares := by rfl
@[simp] theorem oGet_modQueue (d : Dev) (q : Nat) (f : Queue → Queue) (i₂ b₂ k₂ : Nat) : oGet (modQueue d q f) i₂ b₂ k₂ = oGet d i₂ b₂ k₂ := by rfl
@[simp] theorem rs_modQueue (d : Dev) (q : Nat) (f : Queue → Queue) (i₂ b₂ k₂ : Nat) : rs (modQueue d q f) i₂ b₂ k₂ = rs d i₂ b₂ k₂ := by rfl
@[simp] theorem port_modQueue (d : Dev) (q : Nat) (f : Queue → Queue) (q₂ : Nat) : port (modQueue d q f) q₂ = port d q₂ := by rfl
@[simp] theorem thr_modQueue (d : Dev) (q : Nat) (f : Queue → Queue) (x₂ : Nat) : thr (modQueue d q f) x₂ = thr d x₂ := by rfl
@[simp] theorem coreOf_modQueue (d : Dev) (q : Nat) (f : Queue → Queue) (x₂ : Nat) : coreOf (modQueue d q f) x₂ = coreOf d x₂ := by rfl
@[simp] theorem flowOf_modQueue (d : Dev) (q : Nat) (f : Queue → Queue) (x₂ : Nat) : flowOf (modQueue d q f) x₂ = flowOf d x₂ := by rfl
@[simp] theorem uartOf_modQueue (d : Dev) (q : Nat) (f : Queue → Queue) (x₂ : Nat) : uartOf (modQueue d q f) x₂ = uartOf d x₂ := by rfl
@[simp] theorem linkOf_modQueue (d : Dev) (q : Nat) (f : Queue → Queue) (x₂ : Nat) : linkOf (modQueue d q f) x₂ = linkOf d x₂ := by rfl
@[simp] theorem cnt_modQueue (d : Dev) (q : Nat) (f : Queue → Queue) (x₂ : Nat) : cnt (modQueue d q f) x₂ = cnt d x₂ := by rfl

/-! ### modFlow -/

@[simp] theorem modFlow_obj (d : Dev) (q : Nat) (f : Flow → Flow) : (modFlow d q f).obj = d.obj := by rfl
@[simp] theorem modFlow_ver (d : Dev) (q : Nat) (f : Flow → Flow) : (modFlow d q f).ver = d.ver := by rfl
@[simp] theorem modFlow_ports (d : Dev) (q : Nat) (f : Flow → Flow) : (modFlow d q f).ports = d.ports := by rfl
@[simp] theorem modFlow_live (d : Dev) (q : Nat) (f : Flow → Flow) : (modFlow d q f).live = d.live := by rfl
@[simp] theorem modFlow_free (d : Dev) (q : Nat) (f : Flow → Flow) : (modFlow d q f).free = d.free := by rfl
@[simp] theorem modFlow_faults (d : Dev) (q : Nat) (f : Flow → Flow) : (modFlow d q f).faults = d.faults := by rfl
@[simp] theorem modFlow_cycles (d : Dev) (q : Nat) (f : Flow → Flow) : (modFlow d q f).cycles = d.cycles := by rfl
@[simp] theorem modFlow_media (d : Dev) (q : Nat) (f : Flow → Flow) : (modFlow d q f).media = d.media := by rfl
@[simp] theorem modFlow_time (d : Dev) (q : Nat) (f : Flow → Flow) : (modFlow d q f).time = d.time := by rfl
@[simp] theorem modFlow_gourd (d : Dev) (q : Nat) (f : Flow → Flow) : (modFlow d q f).gourd = d.gourd := by rfl
@[simp] theorem modFlow_cores (d : Dev) (q : Nat) (f : Flow → Flow) : (modFlow d q f).cores = d.cores := by rfl
@[simp] theorem modFlow_units (d : Dev) (q : Nat) (f : Flow → Flow) : (modFlow d q f).units = d.units := by rfl
@[simp] theorem modFlow_alloc (d : Dev) (q : Nat) (f : Flow → Flow) : (modFlow d q f).alloc = d.alloc := by rfl
@[simp] theorem modFlow_tuber (d : Dev) (q : Nat) (f : Flow → Flow) : (modFlow d q f).tuber = d.tuber := by rfl
@[simp] theorem modFlow_links (d : Dev) (q : Nat) (f : Flow → Flow) : (modFlow d q f).links = d.links := by rfl
@[simp] theorem modFlow_saps (d : Dev) (q : Nat) (f : Flow → Flow) : (modFlow d q f).saps = d.saps := by rfl
@[simp] theorem modFlow_analog (d : Dev) (q : Nat) (f : Flow → Flow) : (modFlow d q f).analog = d.analog := by rfl
@[simp] theorem modFlow_sense (d : Dev) (q : Nat) (f : Flow → Flow) : (modFlow d q f).sense = d.sense := by rfl
@[simp] theorem modFlow_timers (d : Dev) (q : Nat) (f : Flow → Flow) : (modFlow d q f).timers = d.timers := by rfl
@[simp] theorem modFlow_uarts (d : Dev) (q : Nat) (f : Flow → Flow) : (modFlow d q f).uarts = d.uarts := by rfl
@[simp] theorem modFlow_power (d : Dev) (q : Nat) (f : Flow → Flow) : (modFlow d q f).power = d.power := by rfl
@[simp] theorem modFlow_ctl (d : Dev) (q : Nat) (f : Flow → Flow) : (modFlow d q f).ctl = d.ctl := by rfl
@[simp] theorem modFlow_therm (d : Dev) (q : Nat) (f : Flow → Flow) : (modFlow d q f).therm = d.therm := by rfl
@[simp] theorem modFlow_tap (d : Dev) (q : Nat) (f : Flow → Flow) : (modFlow d q f).tap = d.tap := by rfl
@[simp] theorem modFlow_spares (d : Dev) (q : Nat) (f : Flow → Flow) : (modFlow d q f).spares = d.spares := by rfl
@[simp] theorem oGet_modFlow (d : Dev) (q : Nat) (f : Flow → Flow) (i₂ b₂ k₂ : Nat) : oGet (modFlow d q f) i₂ b₂ k₂ = oGet d i₂ b₂ k₂ := by rfl
@[simp] theorem rs_modFlow (d : Dev) (q : Nat) (f : Flow → Flow) (i₂ b₂ k₂ : Nat) : rs (modFlow d q f) i₂ b₂ k₂ = rs d i₂ b₂ k₂ := by rfl
@[simp] theorem port_modFlow (d : Dev) (q : Nat) (f : Flow → Flow) (q₂ : Nat) : port (modFlow d q f) q₂ = port d q₂ := by rfl
@[simp] theorem thr_modFlow (d : Dev) (q : Nat) (f : Flow → Flow) (x₂ : Nat) : thr (modFlow d q f) x₂ = thr d x₂ := by rfl
@[simp] theorem coreOf_modFlow (d : Dev) (q : Nat) (f : Flow → Flow) (x₂ : Nat) : coreOf (modFlow d q f) x₂ = coreOf d x₂ := by rfl
@[simp] theorem queueOf_modFlow (d : Dev) (q : Nat) (f : Flow → Flow) (x₂ : Nat) : queueOf (modFlow d q f) x₂ = queueOf d x₂ := by rfl
@[simp] theorem uartOf_modFlow (d : Dev) (q : Nat) (f : Flow → Flow) (x₂ : Nat) : uartOf (modFlow d q f) x₂ = uartOf d x₂ := by rfl
@[simp] theorem linkOf_modFlow (d : Dev) (q : Nat) (f : Flow → Flow) (x₂ : Nat) : linkOf (modFlow d q f) x₂ = linkOf d x₂ := by rfl
@[simp] theorem cnt_modFlow (d : Dev) (q : Nat) (f : Flow → Flow) (x₂ : Nat) : cnt (modFlow d q f) x₂ = cnt d x₂ := by rfl

/-! ### modUart -/

@[simp] theorem modUart_obj (d : Dev) (n : Nat) (f : Uart → Uart) : (modUart d n f).obj = d.obj := by rfl
@[simp] theorem modUart_ver (d : Dev) (n : Nat) (f : Uart → Uart) : (modUart d n f).ver = d.ver := by rfl
@[simp] theorem modUart_ports (d : Dev) (n : Nat) (f : Uart → Uart) : (modUart d n f).ports = d.ports := by rfl
@[simp] theorem modUart_live (d : Dev) (n : Nat) (f : Uart → Uart) : (modUart d n f).live = d.live := by rfl
@[simp] theorem modUart_free (d : Dev) (n : Nat) (f : Uart → Uart) : (modUart d n f).free = d.free := by rfl
@[simp] theorem modUart_faults (d : Dev) (n : Nat) (f : Uart → Uart) : (modUart d n f).faults = d.faults := by rfl
@[simp] theorem modUart_cycles (d : Dev) (n : Nat) (f : Uart → Uart) : (modUart d n f).cycles = d.cycles := by rfl
@[simp] theorem modUart_media (d : Dev) (n : Nat) (f : Uart → Uart) : (modUart d n f).media = d.media := by rfl
@[simp] theorem modUart_time (d : Dev) (n : Nat) (f : Uart → Uart) : (modUart d n f).time = d.time := by rfl
@[simp] theorem modUart_gourd (d : Dev) (n : Nat) (f : Uart → Uart) : (modUart d n f).gourd = d.gourd := by rfl
@[simp] theorem modUart_stalk (d : Dev) (n : Nat) (f : Uart → Uart) : (modUart d n f).stalk = d.stalk := by rfl
@[simp] theorem modUart_cores (d : Dev) (n : Nat) (f : Uart → Uart) : (modUart d n f).cores = d.cores := by rfl
@[simp] theorem modUart_units (d : Dev) (n : Nat) (f : Uart → Uart) : (modUart d n f).units = d.units := by rfl
@[simp] theorem modUart_alloc (d : Dev) (n : Nat) (f : Uart → Uart) : (modUart d n f).alloc = d.alloc := by rfl
@[simp] theorem modUart_tuber (d : Dev) (n : Nat) (f : Uart → Uart) : (modUart d n f).tuber = d.tuber := by rfl
@[simp] theorem modUart_links (d : Dev) (n : Nat) (f : Uart → Uart) : (modUart d n f).links = d.links := by rfl
@[simp] theorem modUart_saps (d : Dev) (n : Nat) (f : Uart → Uart) : (modUart d n f).saps = d.saps := by rfl
@[simp] theorem modUart_analog (d : Dev) (n : Nat) (f : Uart → Uart) : (modUart d n f).analog = d.analog := by rfl
@[simp] theorem modUart_sense (d : Dev) (n : Nat) (f : Uart → Uart) : (modUart d n f).sense = d.sense := by rfl
@[simp] theorem modUart_timers (d : Dev) (n : Nat) (f : Uart → Uart) : (modUart d n f).timers = d.timers := by rfl
@[simp] theorem modUart_power (d : Dev) (n : Nat) (f : Uart → Uart) : (modUart d n f).power = d.power := by rfl
@[simp] theorem modUart_ctl (d : Dev) (n : Nat) (f : Uart → Uart) : (modUart d n f).ctl = d.ctl := by rfl
@[simp] theorem modUart_therm (d : Dev) (n : Nat) (f : Uart → Uart) : (modUart d n f).therm = d.therm := by rfl
@[simp] theorem modUart_tap (d : Dev) (n : Nat) (f : Uart → Uart) : (modUart d n f).tap = d.tap := by rfl
@[simp] theorem modUart_spares (d : Dev) (n : Nat) (f : Uart → Uart) : (modUart d n f).spares = d.spares := by rfl
@[simp] theorem oGet_modUart (d : Dev) (n : Nat) (f : Uart → Uart) (i₂ b₂ k₂ : Nat) : oGet (modUart d n f) i₂ b₂ k₂ = oGet d i₂ b₂ k₂ := by rfl
@[simp] theorem rs_modUart (d : Dev) (n : Nat) (f : Uart → Uart) (i₂ b₂ k₂ : Nat) : rs (modUart d n f) i₂ b₂ k₂ = rs d i₂ b₂ k₂ := by rfl
@[simp] theorem port_modUart (d : Dev) (n : Nat) (f : Uart → Uart) (q₂ : Nat) : port (modUart d n f) q₂ = port d q₂ := by rfl
@[simp] theorem thr_modUart (d : Dev) (n : Nat) (f : Uart → Uart) (x₂ : Nat) : thr (modUart d n f) x₂ = thr d x₂ := by rfl
@[simp] theorem coreOf_modUart (d : Dev) (n : Nat) (f : Uart → Uart) (x₂ : Nat) : coreOf (modUart d n f) x₂ = coreOf d x₂ := by rfl
@[simp] theorem queueOf_modUart (d : Dev) (n : Nat) (f : Uart → Uart) (x₂ : Nat) : queueOf (modUart d n f) x₂ = queueOf d x₂ := by rfl
@[simp] theorem flowOf_modUart (d : Dev) (n : Nat) (f : Uart → Uart) (x₂ : Nat) : flowOf (modUart d n f) x₂ = flowOf d x₂ := by rfl
@[simp] theorem linkOf_modUart (d : Dev) (n : Nat) (f : Uart → Uart) (x₂ : Nat) : linkOf (modUart d n f) x₂ = linkOf d x₂ := by rfl
@[simp] theorem cnt_modUart (d : Dev) (n : Nat) (f : Uart → Uart) (x₂ : Nat) : cnt (modUart d n f) x₂ = cnt d x₂ := by rfl

/-! ### modLink -/

@[simp] theorem modLink_obj (d : Dev) (l : Nat) (f : Link → Link) : (modLink d l f).obj = d.obj := by rfl
@[simp] theorem modLink_ver (d : Dev) (l : Nat) (f : Link → Link) : (modLink d l f).ver = d.ver := by rfl
@[simp] theorem modLink_ports (d : Dev) (l : Nat) (f : Link → Link) : (modLink d l f).ports = d.ports := by rfl
@[simp] theorem modLink_live (d : Dev) (l : Nat) (f : Link → Link) : (modLink d l f).live = d.live := by rfl
@[simp] theorem modLink_free (d : Dev) (l : Nat) (f : Link → Link) : (modLink d l f).free = d.free := by rfl
@[simp] theorem modLink_faults (d : Dev) (l : Nat) (f : Link → Link) : (modLink d l f).faults = d.faults := by rfl
@[simp] theorem modLink_cycles (d : Dev) (l : Nat) (f : Link → Link) : (modLink d l f).cycles = d.cycles := by rfl
@[simp] theorem modLink_media (d : Dev) (l : Nat) (f : Link → Link) : (modLink d l f).media = d.media := by rfl
@[simp] theorem modLink_time (d : Dev) (l : Nat) (f : Link → Link) : (modLink d l f).time = d.time := by rfl
@[simp] theorem modLink_gourd (d : Dev) (l : Nat) (f : Link → Link) : (modLink d l f).gourd = d.gourd := by rfl
@[simp] theorem modLink_stalk (d : Dev) (l : Nat) (f : Link → Link) : (modLink d l f).stalk = d.stalk := by rfl
@[simp] theorem modLink_cores (d : Dev) (l : Nat) (f : Link → Link) : (modLink d l f).cores = d.cores := by rfl
@[simp] theorem modLink_units (d : Dev) (l : Nat) (f : Link → Link) : (modLink d l f).units = d.units := by rfl
@[simp] theorem modLink_alloc (d : Dev) (l : Nat) (f : Link → Link) : (modLink d l f).alloc = d.alloc := by rfl
@[simp] theorem modLink_tuber (d : Dev) (l : Nat) (f : Link → Link) : (modLink d l f).tuber = d.tuber := by rfl
@[simp] theorem modLink_saps (d : Dev) (l : Nat) (f : Link → Link) : (modLink d l f).saps = d.saps := by rfl
@[simp] theorem modLink_analog (d : Dev) (l : Nat) (f : Link → Link) : (modLink d l f).analog = d.analog := by rfl
@[simp] theorem modLink_sense (d : Dev) (l : Nat) (f : Link → Link) : (modLink d l f).sense = d.sense := by rfl
@[simp] theorem modLink_timers (d : Dev) (l : Nat) (f : Link → Link) : (modLink d l f).timers = d.timers := by rfl
@[simp] theorem modLink_uarts (d : Dev) (l : Nat) (f : Link → Link) : (modLink d l f).uarts = d.uarts := by rfl
@[simp] theorem modLink_power (d : Dev) (l : Nat) (f : Link → Link) : (modLink d l f).power = d.power := by rfl
@[simp] theorem modLink_ctl (d : Dev) (l : Nat) (f : Link → Link) : (modLink d l f).ctl = d.ctl := by rfl
@[simp] theorem modLink_therm (d : Dev) (l : Nat) (f : Link → Link) : (modLink d l f).therm = d.therm := by rfl
@[simp] theorem modLink_tap (d : Dev) (l : Nat) (f : Link → Link) : (modLink d l f).tap = d.tap := by rfl
@[simp] theorem modLink_spares (d : Dev) (l : Nat) (f : Link → Link) : (modLink d l f).spares = d.spares := by rfl
@[simp] theorem oGet_modLink (d : Dev) (l : Nat) (f : Link → Link) (i₂ b₂ k₂ : Nat) : oGet (modLink d l f) i₂ b₂ k₂ = oGet d i₂ b₂ k₂ := by rfl
@[simp] theorem rs_modLink (d : Dev) (l : Nat) (f : Link → Link) (i₂ b₂ k₂ : Nat) : rs (modLink d l f) i₂ b₂ k₂ = rs d i₂ b₂ k₂ := by rfl
@[simp] theorem port_modLink (d : Dev) (l : Nat) (f : Link → Link) (q₂ : Nat) : port (modLink d l f) q₂ = port d q₂ := by rfl
@[simp] theorem thr_modLink (d : Dev) (l : Nat) (f : Link → Link) (x₂ : Nat) : thr (modLink d l f) x₂ = thr d x₂ := by rfl
@[simp] theorem coreOf_modLink (d : Dev) (l : Nat) (f : Link → Link) (x₂ : Nat) : coreOf (modLink d l f) x₂ = coreOf d x₂ := by rfl
@[simp] theorem queueOf_modLink (d : Dev) (l : Nat) (f : Link → Link) (x₂ : Nat) : queueOf (modLink d l f) x₂ = queueOf d x₂ := by rfl
@[simp] theorem flowOf_modLink (d : Dev) (l : Nat) (f : Link → Link) (x₂ : Nat) : flowOf (modLink d l f) x₂ = flowOf d x₂ := by rfl
@[simp] theorem uartOf_modLink (d : Dev) (l : Nat) (f : Link → Link) (x₂ : Nat) : uartOf (modLink d l f) x₂ = uartOf d x₂ := by rfl
@[simp] theorem cnt_modLink (d : Dev) (l : Nat) (f : Link → Link) (x₂ : Nat) : cnt (modLink d l f) x₂ = cnt d x₂ := by rfl

/-! ### setCntRaw -/

@[simp] theorem setCntRaw_obj (d : Dev) (c v : Nat) : (setCntRaw d c v).obj = d.obj := by rfl
@[simp] theorem setCntRaw_ver (d : Dev) (c v : Nat) : (setCntRaw d c v).ver = d.ver := by rfl
@[simp] theorem setCntRaw_ports (d : Dev) (c v : Nat) : (setCntRaw d c v).ports = d.ports := by rfl
@[simp] theorem setCntRaw_live (d : Dev) (c v : Nat) : (setCntRaw d c v).live = d.live := by rfl
@[simp] theorem setCntRaw_free (d : Dev) (c v : Nat) : (setCntRaw d c v).free = d.free := by rfl
@[simp] theorem setCntRaw_faults (d : Dev) (c v : Nat) : (setCntRaw d c v).faults = d.faults := by rfl
@[simp] theorem setCntRaw_cycles (d : Dev) (c v : Nat) : (setCntRaw d c v).cycles = d.cycles := by rfl
@[simp] theorem setCntRaw_media (d : Dev) (c v : Nat) : (setCntRaw d c v).media = d.media := by rfl
@[simp] theorem setCntRaw_time (d : Dev) (c v : Nat) : (setCntRaw d c v).time = d.time := by rfl
@[simp] theorem setCntRaw_gourd (d : Dev) (c v : Nat) : (setCntRaw d c v).gourd = d.gourd := by rfl
@[simp] theorem setCntRaw_cores (d : Dev) (c v : Nat) : (setCntRaw d c v).cores = d.cores := by rfl
@[simp] theorem setCntRaw_units (d : Dev) (c v : Nat) : (setCntRaw d c v).units = d.units := by rfl
@[simp] theorem setCntRaw_alloc (d : Dev) (c v : Nat) : (setCntRaw d c v).alloc = d.alloc := by rfl
@[simp] theorem setCntRaw_tuber (d : Dev) (c v : Nat) : (setCntRaw d c v).tuber = d.tuber := by rfl
@[simp] theorem setCntRaw_links (d : Dev) (c v : Nat) : (setCntRaw d c v).links = d.links := by rfl
@[simp] theorem setCntRaw_saps (d : Dev) (c v : Nat) : (setCntRaw d c v).saps = d.saps := by rfl
@[simp] theorem setCntRaw_analog (d : Dev) (c v : Nat) : (setCntRaw d c v).analog = d.analog := by rfl
@[simp] theorem setCntRaw_sense (d : Dev) (c v : Nat) : (setCntRaw d c v).sense = d.sense := by rfl
@[simp] theorem setCntRaw_timers (d : Dev) (c v : Nat) : (setCntRaw d c v).timers = d.timers := by rfl
@[simp] theorem setCntRaw_uarts (d : Dev) (c v : Nat) : (setCntRaw d c v).uarts = d.uarts := by rfl
@[simp] theorem setCntRaw_power (d : Dev) (c v : Nat) : (setCntRaw d c v).power = d.power := by rfl
@[simp] theorem setCntRaw_ctl (d : Dev) (c v : Nat) : (setCntRaw d c v).ctl = d.ctl := by rfl
@[simp] theorem setCntRaw_therm (d : Dev) (c v : Nat) : (setCntRaw d c v).therm = d.therm := by rfl
@[simp] theorem setCntRaw_tap (d : Dev) (c v : Nat) : (setCntRaw d c v).tap = d.tap := by rfl
@[simp] theorem setCntRaw_spares (d : Dev) (c v : Nat) : (setCntRaw d c v).spares = d.spares := by rfl
@[simp] theorem oGet_setCntRaw (d : Dev) (c v : Nat) (i₂ b₂ k₂ : Nat) : oGet (setCntRaw d c v) i₂ b₂ k₂ = oGet d i₂ b₂ k₂ := by rfl
@[simp] theorem rs_setCntRaw (d : Dev) (c v : Nat) (i₂ b₂ k₂ : Nat) : rs (setCntRaw d c v) i₂ b₂ k₂ = rs d i₂ b₂ k₂ := by rfl
@[simp] theorem port_setCntRaw (d : Dev) (c v : Nat) (q₂ : Nat) : port (setCntRaw d c v) q₂ = port d q₂ := by rfl
@[simp] theorem thr_setCntRaw (d : Dev) (c v : Nat) (x₂ : Nat) : thr (setCntRaw d c v) x₂ = thr d x₂ := by rfl
@[simp] theorem coreOf_setCntRaw (d : Dev) (c v : Nat) (x₂ : Nat) : coreOf (setCntRaw d c v) x₂ = coreOf d x₂ := by rfl
@[simp] theorem queueOf_setCntRaw (d : Dev) (c v : Nat) (x₂ : Nat) : queueOf (setCntRaw d c v) x₂ = queueOf d x₂ := by rfl
@[simp] theorem flowOf_setCntRaw (d : Dev) (c v : Nat) (x₂ : Nat) : flowOf (setCntRaw d c v) x₂ = flowOf d x₂ := by rfl
@[simp] theorem uartOf_setCntRaw (d : Dev) (c v : Nat) (x₂ : Nat) : uartOf (setCntRaw d c v) x₂ = uartOf d x₂ := by rfl
@[simp] theorem linkOf_setCntRaw (d : Dev) (c v : Nat) (x₂ : Nat) : linkOf (setCntRaw d c v) x₂ = linkOf d x₂ := by rfl

/-! ### What the updated record reads as -/

theorem oGet_eq (d : Dev) (i b k : Nat) : oGet d i b k = mget (defaultAt (okey i b k)) d.obj (okey i b k) := mfind_eq ..

theorem rs_eq (d : Dev) (i b k : Nat) :
    rs d i b k = mget (defaultAt (okey i b k)) d.ver.active.vals (okey i b k) := mfind_eq ..

@[simp] theorem oGet_oSet_self (d : Dev) (i b v k : Nat) : oGet (oSet d i b v k) i b k = v := by
  rw [oGet_eq]; exact mget_mput_self ..

theorem oGet_oSet_other (d : Dev) (i b v k i' b' k' : Nat) (h : okey i' b' k' ≠ okey i b k) :
    oGet (oSet d i b v k) i' b' k' = oGet d i' b' k' := by
  rw [oGet_eq, oGet_eq]; exact mget_mput_elsewhere _ _ _ _ _ _ h

/-- Two objects of one instance have different keys. -/
theorem okey_ne (i b k i' b' k' : Nat) (hb : b < 256) (hb' : b' < 256) (hk : k < 131072) (hk' : k' < 131072)
    (h : i ≠ i' ∨ b ≠ b' ∨ k ≠ k') : okey i b k ≠ okey i' b' k' := by
  intro e
  unfold okey at e
  omega

/-- Two objects outside windows have different keys. -/
theorem okey_ne0 (i b i' b' : Nat) (hb : b < 256) (hb' : b' < 256) (h : i ≠ i' ∨ b ≠ b') : okey i b 0 ≠ okey i' b' 0 := by
  apply okey_ne <;> first | assumption | omega

@[simp] theorem oGet_bump_self (d : Dev) (i b n k : Nat) :
    oGet (bump d i b n k) i b k = min (topOf i b) (oGet d i b k + n) := oGet_oSet_self ..

theorem oGet_bump_other (d : Dev) (i b n k i' b' k' : Nat) (h : okey i' b' k' ≠ okey i b k) :
    oGet (bump d i b n k) i' b' k' = oGet d i' b' k' := oGet_oSet_other _ _ _ _ _ _ _ _ h

@[simp] theorem port_modPort_self (d : Dev) (p : Nat) (f : Port → Port) : port (modPort d p f) p = f (port d p) :=
  mget_mmod_self ..

theorem port_modPort_other (d : Dev) (p q : Nat) (f : Port → Port) (h : q ≠ p) : port (modPort d p f) q = port d q :=
  mget_mmod_other _ _ _ _ _ h

@[simp] theorem thr_modThr_self (d : Dev) (t : Nat) (f : Thread → Thread) : thr (modThr d t f) t = f (thr d t) :=
  mget_mmod_self ..

theorem thr_modThr_other (d : Dev) (t x : Nat) (f : Thread → Thread) (h : x ≠ t) : thr (modThr d t f) x = thr d x :=
  mget_mmod_other _ _ _ _ _ h

@[simp] theorem coreOf_modCore_self (d : Dev) (n : Nat) (f : Core → Core) : coreOf (modCore d n f) n = f (coreOf d n) :=
  mget_mmod_self ..

theorem coreOf_modCore_other (d : Dev) (n x : Nat) (f : Core → Core) (h : x ≠ n) :
    coreOf (modCore d n f) x = coreOf d x := mget_mmod_other _ _ _ _ _ h

@[simp] theorem queueOf_modQueue_self (d : Dev) (q : Nat) (f : Queue → Queue) :
    queueOf (modQueue d q f) q = f (queueOf d q) := mget_mmod_self ..

theorem queueOf_modQueue_other (d : Dev) (q x : Nat) (f : Queue → Queue) (h : x ≠ q) :
    queueOf (modQueue d q f) x = queueOf d x := mget_mmod_other _ _ _ _ _ h

@[simp] theorem flowOf_modFlow_self (d : Dev) (q : Nat) (f : Flow → Flow) : flowOf (modFlow d q f) q = f (flowOf d q) :=
  mget_mmod_self ..

theorem flowOf_modFlow_other (d : Dev) (q x : Nat) (f : Flow → Flow) (h : x ≠ q) : flowOf (modFlow d q f) x = flowOf d x :=
  mget_mmod_other _ _ _ _ _ h

@[simp] theorem uartOf_modUart_self (d : Dev) (n : Nat) (f : Uart → Uart) : uartOf (modUart d n f) n = f (uartOf d n) :=
  mget_mmod_self ..

theorem uartOf_modUart_other (d : Dev) (n x : Nat) (f : Uart → Uart) (h : x ≠ n) :
    uartOf (modUart d n f) x = uartOf d x := mget_mmod_other _ _ _ _ _ h

@[simp] theorem linkOf_modLink_self (d : Dev) (l : Nat) (f : Link → Link) : linkOf (modLink d l f) l = f (linkOf d l) :=
  mget_mmod_self ..

theorem linkOf_modLink_other (d : Dev) (l x : Nat) (f : Link → Link) (h : x ≠ l) :
    linkOf (modLink d l f) x = linkOf d x := mget_mmod_other _ _ _ _ _ h

@[simp] theorem cnt_setCntRaw_self (d : Dev) (c v : Nat) : cnt (setCntRaw d c v) c = v := mget_mput_self ..

theorem cnt_setCntRaw_other (d : Dev) (c x v : Nat) (h : x ≠ c) : cnt (setCntRaw d c v) x = cnt d x :=
  mget_mput_other _ _ _ _ _ h

/-! ### The registers of a thread (14 R400) -/

@[simp] theorem gR_zero (r : Regs) : gR r 0 = 0 := rfl

theorem gR_gW_self (r : Regs) (n : BitVec 5) (v : Word) (h : n ≠ 0) : gR (gW r n v) n = v := by
  unfold gR gW; rw [if_neg h, if_neg h]; exact mget_mput_self ..

theorem gR_gW_other (r : Regs) (n x : BitVec 5) (v : Word) (h : x ≠ n) : gR (gW r n v) x = gR r x := by
  unfold gR gW
  split
  · rfl
  · split
    · rfl
    · exact mget_mput_other _ _ _ _ _ (fun e => h (BitVec.eq_of_toNat_eq e))

/-- A write of a G register: G0 keeps reading 0. -/
theorem gR_gW (r : Regs) (n x : BitVec 5) (v : Word) : gR (gW r n v) x = if x = n ∧ n ≠ 0 then v else gR r x := by
  by_cases h : x = n
  · subst h
    by_cases h0 : x = 0
    · subst h0; rfl
    · rw [gR_gW_self _ _ _ h0, if_pos ⟨rfl, h0⟩]
  · rw [gR_gW_other _ _ _ _ h, if_neg (fun c => h c.1)]

/-- A G register's write changes nothing but the G registers. -/
theorem gW_rest (r : Regs) (n : BitVec 5) (v : Word) : gW r n v = { r with g := (gW r n v).g } := by
  unfold gW; split <;> rfl

theorem vR_vW (r : Regs) (n x : BitVec 4) (v : BitVec 128) : vR (vW r n v) x = if x = n then v else vR r x := by
  unfold vR vW
  rw [mget_mput]
  by_cases h : x = n
  · subst h; simp
  · rw [if_neg h, if_neg (fun e => h (BitVec.eq_of_toNat_eq e))]

theorem acR_acW (r : Regs) (n x : BitVec 2) (v : BitVec 320) : acR (acW r n v) x = if x = n then v else acR r x := by
  unfold acR acW
  rw [mget_mput]
  by_cases h : x = n
  · subst h; simp
  · rw [if_neg h, if_neg (fun e => h (BitVec.eq_of_toNat_eq e))]

end Sys2Proof.Laws
end

