-- ==== Sys2Proof/Laws/Marrow.lean ====
section
/-!
SUPPORT. Sys2Proof/Laws/Marrow.lean: what the shared operations of Marrow instructions do: issue, completion, transfer,
and an instruction that changes registers alone.
-/
namespace Sys2Proof.Laws
open Sys2Proof.Machine

@[simp] theorem thr_modRegs_self (d : Dev) (t : Nat) (f : Regs → Regs) :
    thr (modRegs d t f) t = { thr d t with regs := f (thr d t).regs } := thr_modThr_self ..

theorem thr_modRegs_other (d : Dev) (t x : Nat) (f : Regs → Regs) (h : x ≠ t) : thr (modRegs d t f) x = thr d x :=
  thr_modThr_other _ _ _ _ h

@[simp] theorem coreOf_modRegs (d : Dev) (t : Nat) (f : Regs → Regs) (n : Nat) : coreOf (modRegs d t f) n = coreOf d n := by rfl

@[simp] theorem thr_issue (d : Dev) (n t x : Nat) : thr (issue d n t) x = thr d x := by rfl
@[simp] theorem thr_refill (d : Dev) (n t x : Nat) : thr (refill d n t) x = thr d x := by rfl

theorem onlyRegs_refl (d : Dev) (n t : Nat) : OnlyRegs d d n t := ⟨rfl, fun _ _ => rfl, rfl, fun _ => ⟨rfl, fun _ => rfl⟩⟩

theorem onlyRegs_trans {d e f : Dev} {n t : Nat} (h : OnlyRegs d e n t) (g : OnlyRegs e f n t) : OnlyRegs d f n t := by
  obtain ⟨h1, h2, h3, h4⟩ := h
  obtain ⟨g1, g2, g3, g4⟩ := g
  refine ⟨?_, fun x hx => (g2 x hx).trans (h2 x hx), ?_, fun m => ⟨?_, fun hm => ((g4 m).2 hm).trans ((h4 m).2 hm)⟩⟩
  · rw [← h1, ← g1]
  · rw [← h3, ← g3]
  · rw [← (h4 m).1, ← (g4 m).1]

theorem onlyRegs_modRegs (d : Dev) (n t : Nat) (f : Regs → Regs) : OnlyRegs d (modRegs d t f) n t :=
  ⟨rfl, fun x hx => thr_modRegs_other _ _ _ _ hx, by rw [thr_modRegs_self], fun _ => ⟨rfl, fun _ => rfl⟩⟩

theorem onlyRegs_pbuf (d : Dev) (n t : Nat) (f : Core → List Word) :
    OnlyRegs d (modCore d n (fun c => { c with pbuf := f c })) n t := by
  refine ⟨rfl, fun _ _ => rfl, rfl, fun m => ?_⟩
  by_cases h : m = n
  · subst h; rw [coreOf_modCore_self]; exact ⟨rfl, fun c => absurd rfl c⟩
  · rw [coreOf_modCore_other _ _ _ _ h]; exact ⟨rfl, fun _ => rfl⟩

theorem onlyRegs_issue (d : Dev) (n t : Nat) : OnlyRegs d (issue d n t) n t := onlyRegs_pbuf d n t _
theorem onlyRegs_refill (d : Dev) (n t : Nat) : OnlyRegs d (refill d n t) n t := onlyRegs_pbuf d n t _

/-- Completion: the loop step applies to the thread's registers, and nothing else but the prefetch buffer changes. -/
theorem complete_spec (d : Dev) (n t : Nat) :
    (thr (complete d n t) t).regs = (loopStep (thr d t).regs).1 ∧ OnlyRegs d (complete d n t) n t := by
  unfold complete
  dsimp only
  split
  · exact ⟨by simp, onlyRegs_trans (onlyRegs_modRegs ..) (onlyRegs_refill ..)⟩
  · exact ⟨by simp, onlyRegs_modRegs ..⟩

/-- A transfer: RCNT := 0, PC := target. -/
theorem transfer_spec (d : Dev) (n t : Nat) (a : BitVec 13) :
    (thr (transfer d n t a) t).regs = jumpTo (thr d t).regs a ∧ OnlyRegs d (transfer d n t a) n t :=
  ⟨by simp [transfer], onlyRegs_trans (onlyRegs_modRegs ..) (onlyRegs_refill ..)⟩

/-- The loop step is the rule of PC and RCNT; every other register is unchanged. -/
theorem loopStep_spec (r : Regs) :
    NextPc r (loopStep r).1 ∧ { (loopStep r).1 with pc := r.pc, rcnt := r.rcnt } = r := by
  unfold loopStep NextPc
  split
  · exact ⟨⟨rfl, rfl⟩, rfl⟩
  · split
    · exact ⟨⟨rfl, rfl⟩, rfl⟩
    · exact ⟨⟨rfl, rfl⟩, rfl⟩

/-- An instruction on a dispatched thread answers its effect after the issue. -/
theorem coreInstr_next {s : State} {n t : Nat} (h : Dispatched s n t) (f : Dev → Nat → Dev) :
    coreInstr n f s = .next { s with dev := f (issue s.dev n t) t } := by
  obtain ⟨ha, hr, ht⟩ := h
  simp [coreInstr, onAwake, onDev, onCore, show s.dev.power.phase = .awake from ha, hr, ht]

/-- A register instruction: its function, then the loop step, and nothing else. -/
theorem regInstr_spec {s : State} {n t : Nat} (h : Dispatched s n t) (f : Regs → Regs) :
    ∃ u, regInstr n f s = .next u ∧ u.pending = s.pending ∧ OnlyRegs s.dev u.dev n t ∧
      regsOf u t = (loopStep (f (regsOf s t))).1 := by
  have e := coreInstr_next h (fun d t => complete (modRegs d t f) n t)
  refine ⟨_, e, rfl, ?_, ?_⟩
  · exact onlyRegs_trans (onlyRegs_issue ..) (onlyRegs_trans (onlyRegs_modRegs ..) (complete_spec ..).2)
  · simp [regsOf, (complete_spec _ _ _).1]

end Sys2Proof.Laws
end

