-- ==== Sys2Proof/Laws/Services.lean ====
section
/-!
SUPPORT. Sys2Proof/Laws/Services.lean: what the shared operations of the services do: an answer, a request that is
executed at once, a live write that waits.
-/
namespace Sys2Proof.Laws
open Sys2Proof.Machine

theorem onAwake_next {s : State} (h : Awake s) (f : Dev → Dev) : onAwake f s = .next { s with dev := f s.dev } := by
  simp [onAwake, onDev, show s.dev.power.phase = .awake from h]


/-- A frame for a partner changes its Link or its UART alone. -/
theorem port_sendFrame (d : Dev) (p node : Nat) (b : List Byte) (q : Nat) : port (sendFrame d p node b) q = port d q := by
  unfold sendFrame; split <;> rfl

theorem port_sendResp (d : Dev) (p fl : Nat) (r : Resp) (q : Nat) : port (sendResp d p fl r) q = port d q := by
  unfold sendResp; split
  · rfl
  · exact port_sendFrame ..

/-- A response that is not sent leaves nothing. -/
theorem respond_quiet (d : Dev) (p : Nat) (f : Frame) (svc c : Nat) (b : List Byte) (h : sends d p f c = false) :
    respond d p f svc c b = d := by
  unfold respond; rw [if_pos]
  simp only [sends, Bool.and_eq_false_iff, Bool.not_eq_false', Bool.and_eq_true, beq_iff_eq] at h
  exact h

/-- A response that is sent is kept and becomes a frame. -/
theorem respond_sends (d : Dev) (p : Nat) (f : Frame) (svc c : Nat) (b : List Byte) (hb : c ≠ 0 → b = []) (h : sends d p f c = true) :
    respond d p f svc c b = sendFrame (modPort d p (fun x => { x with
      store := lastN 32 (x.store ++ [⟨f.node, f.seq, svc, c, f.idx, f.sub, b⟩]) })) p f.node
        (svcFrame f.seq (128 + svc) c f.idx f.sub b) := by
  have hb' : (if c = 0 then b else []) = b := by split <;> simp_all
  simp only [sends, Bool.and_eq_true, Bool.not_eq_true', Bool.and_eq_false_iff, beq_eq_false_iff_ne] at h
  have hn : ¬ (c = 0 ∧ bitOf f.flags 1 = true) := fun ⟨h1, h2⟩ => by simp [h1, h2] at h
  unfold respond sendResp
  rw [if_neg (by rw [h.1]; simpa using hn), hb', if_neg hn]

/-- An answer that is sent is kept, and nothing else changes. -/
theorem respond_told (d : Dev) (p : Nat) (f : Frame) (svc c : Nat) (b : List Byte) (hp : p < 8)
    (hb : c ≠ 0 → b = []) (ho : (port d p).outq = []) : Told d (respond d p f svc c b) p f svc c b := by
  cases hs : sends d p f c with
  | false =>
    rw [respond_quiet _ _ _ _ _ _ hs]
    refine ⟨by simp only [hs, Bool.false_eq_true, ite_false, ← ho], fun _ _ => rfl, fun _ h => ?_, fun _ _ => rfl, fun _ h => ?_,
      fun _ _ => rfl, rfl⟩
    · rw [hs] at h; cases h
    · rw [hs] at h; cases h
  | true =>
    rw [respond_sends _ _ _ _ _ _ hb hs]
    refine ⟨by rw [port_sendFrame, port_modPort_self, if_pos hs, ← ho], fun q h => ?_, ?_⟩
    · rw [port_sendFrame]; exact port_modPort_other _ _ _ _ h
    unfold sendFrame
    refine ⟨fun h4 _ => ?_, fun l hl => ?_, fun h4 _ => ?_, fun n hn => ?_, ?_⟩
    · rw [if_pos h4]; simp
    · split
      · rename_i h4
        rw [linkOf_modLink_other]; · rfl
        rcases hl with h | h | h
        · exact h
        · omega
        · exact absurd hs h
      · rfl
    · rw [if_neg (by omega)]; simp; rfl
    · split
      · rfl
      · rw [uartOf_modUart_other]; · rfl
        rcases hn with h | h
        · omega
        · exact absurd hs h
    · split <;> rfl

/-- A port with nothing to answer does nothing. -/
theorem pumpOnce_idle (d : Dev) (p : Nat) (errs : List (Nat × Bool)) (h : (port d p).outq = []) : pumpOnce d p errs = none := by
  simp [pumpOnce, h, splitLive]

theorem pumpN_idle (errs : List (Nat × Bool)) (n : Nat) (d : Dev) (p : Nat) (h : (port d p).outq = []) :
    pumpN errs n d p = d := by
  cases n <;> simp [pumpN, pumpOnce_idle, h]

/-- Nothing that waits is refused by a freeze. -/
theorem flushFrozen_idle (d : Dev) (p : Nat) (h : (port d p).outq = []) :
    flushFrozen d p = modPort d p (fun x => { x with outq := [] }) := by
  simp [flushFrozen, h]

/-- Only an accepted COMMIT or REVERT makes a switch at its response. -/
theorem switchAnswered_other {svc : Nat} {a : Ans} (h : accepted svc a = false) (d : Dev) : switchAnswered svc a d = d := by
  rw [switchAnswered, h]; simp

theorem accepted_svc {svc : Nat} (h : svc ≠ 5 ∧ svc ≠ 6) (a : Ans) : accepted svc a = false := by
  simp [accepted, h.1, h.2]

theorem accepted_code {c : Nat} (h : c ≠ 0) (svc : Nat) (b : List Byte) (g : List Nat) :
    accepted svc (.done c b g) = false := by
  simp [accepted, h]

/-- The part of a request's execution that follows its result. -/
def settleReq (e : Dev) (p svc : Nat) (f : Frame) (errs : List (Nat × Bool)) (r : Dev × Ans) : Dev :=
  let d := switchAnswered svc r.2 (finish r.1 p svc f r.2)
  let d := if (port d p).session then modPort d p (fun x => { x with outq := x.outq ++ [] }) else d
  pumpN errs 2 (if frozen d p && !frozen e p then flushFrozen d p else d) p

/-- A port with nothing to answer has room in its queues. -/
theorem serviceFull_idle (d : Dev) (p : Nat) (h : (port d p).outq = []) : serviceFull d p = false := by
  simp [serviceFull, busiest, waitingFrom, h, rangeFrom]

/-- One request that does not wait for a queue leaves room. -/
theorem serviceFull_one (d : Dev) (p : Nat) (x : Outq) (h : (port d p).outq = [x]) (hx : x.waits = false) :
    serviceFull d p = false := by
  have w : ∀ n, waitingFrom d p n ≤ 1 := fun n => by
    unfold waitingFrom; rw [h]; exact List.length_filter_le _ _
  have b : busiest d p ≤ 1 := by
    have key : ∀ (l : List Nat) (a : Nat), a ≤ 1 → (∀ y ∈ l, y ≤ 1) → l.foldl max a ≤ 1 := by
      intro l
      induction l with
      | nil => intro a ha _; exact ha
      | cons y r ih => intro a ha hl; exact ih _ (by have := hl y (by simp); omega) (fun z hz => hl z (by simp [hz]))
    refine key _ 0 (by omega) (fun y hy => ?_)
    obtain ⟨n, _, rfl⟩ := List.mem_map.1 hy
    exact w n
  simp only [serviceFull, h, List.any_cons, hx, List.any_nil, Bool.or_self, Bool.false_or, decide_eq_false_iff_not]
  omega

theorem askXoff_idle (d : Dev) (p : Nat) (h : (port d p).outq = []) : askXoff d p = d := by
  simp [askXoff, serviceFull_idle d p h]

/-- The guard test and the forwarding of a frame leave the ports as they are. -/
theorem port_guardTest (d : Dev) (l node : Nat) (off : Int) (q : Nat) : port (guardTest d l node off).2 q = port d q := by
  unfold guardTest
  split
  · dsimp only
    split <;> split <;> (try split) <;> rfl
  · rfl

theorem port_forwardFrame (d : Dev) (l o : Nat) (b : List Byte) (q : Nat) : port (forwardFrame d l o b) q = port d q := by
  unfold forwardFrame; split <;> rfl

/-- Which responses are kept does not turn on what waits. -/
theorem keptResp_queueOut (d : Dev) (p : Nat) (x : Outq) (f : Frame) : keptResp (queueOut d p x) p f = keptResp d p f := by
  simp [keptResp, queueOut]

/-- A request that is heard is executed, and nothing else happens on its port but XOFF where it has to wait. -/
theorem heard_submit {s : State} {p svc : Nat} {f : Frame} {e : Dev} (h : Heard s p svc f e) (hs : svc < 128)
    (errs : List (Nat × Bool)) :
    submit s.dev p svc f errs = askXoff (settleReq e p svc f errs (execute e p svc f e.time.anchor errs)) p := by
  obtain ⟨_, hp, hse, c, hc, ho, hk, rfl⟩ := h
  have key : takeRequest c p svc f errs = askXoff (settleReq (modPort (queueOut c p (.req svc f c.time.anchor)) p (fun x => { x with outq := [] }))
      p svc f errs (execute (modPort (queueOut c p (.req svc f c.time.anchor)) p (fun x => { x with outq := [] })) p svc f
        c.time.anchor errs)) p := by
    have hq : (port (queueOut c p (.req svc f c.time.anchor)) p).outq = [.req svc f c.time.anchor] := by
      simp [queueOut, ho]
    simp only [takeRequest, if_neg (show ¬ 128 ≤ svc by omega), pump, hq, List.length_singleton]
    show askXoff (pumpN errs 3 _ p) p = _
    rw [pumpN]
    simp only [pumpOnce, hq, splitLive, true_or, ite_true, runReq, keptResp_queueOut, hk]
    rfl
  unfold submit
  rw [if_neg (by omega)]
  unfold Arrives at hc
  by_cases h4 : p < 4
  · rw [if_pos h4] at hc ⊢
    obtain ⟨hr, h64, hg, ht⟩ := hc
    have hs' : (port (forwardFrame (guardTest s.dev p f.node f.off).2 p f.node
        (svcFrame f.seq svc f.flags f.idx f.sub f.payload)) p).session = true := by
      rw [port_forwardFrame, port_guardTest, hse]
    simp only [hr, hg, ht, hs', Bool.not_true, Bool.false_eq_true, ite_false, ite_true, Bool.true_eq_false]
    rw [if_neg (by omega)]
    exact key
  · rw [if_neg h4] at hc ⊢
    subst hc
    rw [if_pos hse]
    exact key

theorem told_congr {d d' e : Dev} {p : Nat} {f : Frame} {svc c : Nat} {b : List Byte} (h : Told d e p f svc c b)
    (hp : ∀ q, port d' q = port d q) (hd : { d' with ports := d.ports } = d) : Told d' e p f svc c b := by
  obtain ⟨h1, h2, h3, h4, h5, h6, h7⟩ := h
  have hl : ∀ l, linkOf d' l = linkOf d l := fun l => by
    show mget Link.zero d'.links l = mget Link.zero d.links l
    rw [← hd]
  have hu : ∀ l, uartOf d' l = uartOf d l := fun l => by
    show mget Uart.zero d'.uarts l = mget Uart.zero d.uarts l
    rw [← hd]
  have hst : ∀ n b, stuff d' n b = stuff d n b := fun n b => by
    have : ∀ x, stuffByte d' n x = stuffByte d n x := fun x => by
      have : ∀ s, rs d' (0x7E00 + n) s = rs d (0x7E00 + n) s := fun s => by
        show vGet d'.ver.active _ _ _ = vGet d.ver.active _ _ _
        rw [← hd]
      simp only [stuffByte, this]
    show (0x7E :: List.flatMap (stuffByte d' n) b) ++ _ = (0x7E :: List.flatMap (stuffByte d n) b) ++ _
    rw [show stuffByte d' n = stuffByte d n from funext this]
  have hs : sends d' p f c = sends d p f c := by unfold sends; rw [hp]
  refine ⟨by rw [hp, hs, h1], fun q hq => by rw [hp, h2 q hq], fun a b => by rw [hl, h3 a (hs ▸ b)], fun l a => by rw [hl, h4 l (hs ▸ a)],
    fun a b => by rw [hu, hst, h5 a (hs ▸ b)], fun l a => by rw [hu, h6 l (hs ▸ a)], ?_⟩
  have a := congrArg (fun x : Dev => { x with ports := d'.ports, links := d'.links, uarts := d'.uarts }) h7
  refine (show _ = _ from a).trans ?_
  have b := congrArg (fun x : Dev => { x with ports := d'.ports, links := d'.links, uarts := d'.uarts }) hd
  exact (show _ = _ from b).symm

theorem told_after {d e e' : Dev} {p : Nat} {f : Frame} {svc c : Nat} {b : List Byte} (h : Told d e p f svc c b)
    (hp : ∀ q, port e' q = port e q) (hd : { e' with ports := e.ports } = e) : Told d e' p f svc c b := by
  obtain ⟨h1, h2, h3, h4, h5, h6, h7⟩ := h
  have hl : ∀ l, linkOf e' l = linkOf e l := fun l => by
    show mget Link.zero e'.links l = mget Link.zero e.links l
    rw [← hd]
  have hu : ∀ l, uartOf e' l = uartOf e l := fun l => by
    show mget Uart.zero e'.uarts l = mget Uart.zero e.uarts l
    rw [← hd]
  refine ⟨by rw [hp, h1], fun q hq => by rw [hp, h2 q hq], fun a b => by rw [hl, h3 a b], fun l a => by rw [hl, h4 l a],
    fun a b => by rw [hu, h5 a b], fun l a => by rw [hu, h6 l a], ?_⟩
  have a := congrArg (fun x : Dev => { x with ports := d.ports, links := d.links, uarts := d.uarts }) hd
  exact (show _ = _ from a).trans h7

theorem port_noOutq (x : Port) (h : x.outq = []) : { x with outq := [] } = x := by rw [← h]

/-- What follows a result that is answered at once. -/
theorem settleReq_answer {e d : Dev} {p svc : Nat} {f : Frame} {errs : List (Nat × Bool)} {c : Nat} {b : List Byte}
    {r : Dev × Ans} (hp : p < 8) (hb : c ≠ 0 → b = []) (ho : (port d p).outq = [])
    (hf : finish r.1 p svc f r.2 = respond d p f svc c b) (hv : accepted svc r.2 = false) :
    Told d (settleReq e p svc f errs r) p f svc c b := by
  have t := respond_told d p f svc c b hp hb ho
  simp only [settleReq, hf, switchAnswered_other hv]
  have h0 : (port (respond d p f svc c b) p).outq = [] := by rw [t.1]
  generalize hg : (if (port (respond d p f svc c b) p).session = true then
    modPort (respond d p f svc c b) p (fun x => { x with outq := x.outq ++ [] }) else respond d p f svc c b) = g
  have h1 : ∀ q, port g q = port (respond d p f svc c b) q := fun q => by
    rw [← hg]; split
    · by_cases hq : q = p
      · subst hq; simp [h0, port_noOutq]
      · exact port_modPort_other _ _ _ _ hq
    · rfl
  have h2 : { g with ports := (respond d p f svc c b).ports } = respond d p f svc c b := by rw [← hg]; split <;> rfl
  split
  · rw [flushFrozen_idle _ _ (by rw [h1, h0]), pumpN_idle _ _ _ _ (by simp)]
    refine told_after t (fun q => ?_) h2
    by_cases hq : q = p
    · subst hq; simp [h1, h0, port_noOutq]
    · rw [port_modPort_other _ _ _ _ hq, h1]
  · rw [pumpN_idle _ _ _ _ (by rw [h1, h0])]
    exact told_after t h1 h2

/-- What follows a result that is answered at once, with no inquiry to reply to. -/
theorem settleReq_done {e d : Dev} {p svc : Nat} {f : Frame} {errs : List (Nat × Bool)} {c : Nat} {b : List Byte}
    (hp : p < 8) (hb : c ≠ 0 → b = []) (ho : (port d p).outq = []) (hv : accepted svc (.done c b []) = false) :
    Told d (settleReq e p svc f errs (d, .done c b [])) p f svc c b :=
  settleReq_answer hp hb ho (by simp [finish, sendReplies, answer, ho]) hv

/-- A request that is heard and answered at once. -/
theorem heard_done {s : State} {p svc : Nat} {f : Frame} {e d : Dev} {errs : List (Nat × Bool)} {c : Nat} {b : List Byte}
    (h : Heard s p svc f e) (hs : svc < 128) (hx : execute e p svc f e.time.anchor errs = (d, .done c b []))
    (ho : (port d p).outq = []) (hb : c ≠ 0 → b = [])
    (hv : accepted svc (.done c b []) = false) : Told d (submit s.dev p svc f errs) p f svc c b := by
  rw [heard_submit h hs, hx]
  have t := settleReq_done (e := e) (errs := errs) (svc := svc) (f := f) h.2.1 hb ho hv
  rw [askXoff_idle _ _ (by rw [t.1])]
  exact t

theorem heard_outq {s : State} {p svc : Nat} {f : Frame} {e : Dev} (h : Heard s p svc f e) : (port e p).outq = [] := by
  obtain ⟨_, _, _, c, _, _, _, rfl⟩ := h
  simp

theorem heard_session {s : State} {p svc : Nat} {f : Frame} {e : Dev} (h : Heard s p svc f e) : (port e p).session = true := by
  obtain ⟨_, _, hs, c, hc, _, _, rfl⟩ := h
  have : (port c p).session = true := by
    unfold Arrives at hc
    split at hc
    · obtain ⟨_, _, _, ht⟩ := hc
      unfold takeCredit at ht
      dsimp only at ht
      split at ht
      · cases ht
        show (port (forwardFrame _ _ _ _) p).session = true
        rw [port_forwardFrame, port_guardTest, hs]
      · cases ht
    · rw [hc, hs]
  simpa [queueOut] using this

theorem reply_of {i : Instr} {s : State} {p svc : Nat} {f : Frame} {e d : Dev} {errs : List (Nat × Bool)} {c : Nat} {b : List Byte}
    (h : Heard s p svc f e) (hi : ∀ s, exec i s = onAwake (fun d => submit d p svc f errs) s) (hs : svc < 128)
    (hx : execute e p svc f e.time.anchor errs = (d, .done c b [])) (ho : (port d p).outq = []) (hb : c ≠ 0 → b = [])
    (hv : accepted svc (.done c b []) = false) :
    Reply i s d p f svc c b := by
  refine ⟨{ s with dev := submit s.dev p svc f errs }, ⟨?_, rfl⟩, ?_⟩
  · rw [hi, onAwake_next h.1]
  · exact heard_done h hs hx ho hb hv

theorem taken_execute {e : Dev} {p svc : Nat} {f : Frame} (h : Taken e p svc f) :
    (frozen e p && !allowedFrozen p svc f) = false ∧ badFrame svc f = false := by
  obtain ⟨h1, h2⟩ := h
  refine ⟨?_, h1⟩
  rcases h2 with h | h <;> simp [h]

theorem accAt_rs {r : ObjRef} {inst : Nat} (h : accAt r inst = .rs) : r.row.acc = .rs := by
  unfold accAt at h; split at h
  · cases h
  · exact h

theorem freezeNotes_alloc (d : Dev) (p : Nat) : ∃ a, freezeNotes d p = { d with alloc := a } := by
  unfold freezeNotes; split
  · exact ⟨_, rfl⟩
  · exact ⟨d.alloc, rfl⟩

theorem countRecord_obj (d : Dev) (u q : Nat) : ∃ o, countRecord d u q = { d with obj := o } := by
  unfold countRecord; split
  · exact ⟨_, rfl⟩
  · split
    · exact ⟨_, rfl⟩
    · exact ⟨d.obj, rfl⟩

theorem frozen_iff (d : Dev) (p : Nat) : frozen d p = true ↔ oGet d (0x1000 + p) 6 = 1 := by simp [frozen]

/-- A record: the log's own objects and the units' counts change, and the record stands in the log. -/
theorem addFault_spec (d : Dev) (kind unit action repl lost detail addr : Nat) (hu : 0x54 ≤ unit) :
    ∃ o l, addFault d kind unit action repl lost detail addr = { d with obj := o, faults := l } ∧
      (∃ x ∈ l, x.kind = kind ∧ x.unit = unit ∧ x.detail = detail ∧ x.addr = addr) ∧
      ∀ i b, i ≠ 0x0300 → b < 256 → oGet (addFault d kind unit action repl lost detail addr) i b = oGet d i b := by
  have hc : ∀ d : Dev, ∀ q, countRecord d unit q = d := fun d q => by
    unfold countRecord; rw [if_neg (by omega), if_neg (by omega)]
  have ho : ∃ o, (if d.faults.any (fun x => x.seq + 64 = oGet d 0x0300 0x01 + 1) then bump d 0x0300 0x03 else d) = { d with obj := o } ∧
      ∀ i b, i ≠ 0x0300 → b < 256 → oGet { d with obj := o } i b = oGet d i b := by
    split
    · exact ⟨_, rfl, fun i b hi hb => oGet_oSet_other _ _ _ _ _ _ _ _ (okey_ne0 _ _ _ _ hb (by omega) (.inl hi))⟩
    · exact ⟨d.obj, rfl, fun _ _ _ _ => rfl⟩
  obtain ⟨o, ho, hk⟩ := ho
  unfold addFault writeFault draftFault
  simp only [hc]
  rw [ho]
  refine ⟨_, _, rfl, ⟨⟨oGet d 0x0300 1 + 1, oGet d 0x2000 3, blockNow d, uptimeMs d % 2 ^ 32, kind, unit, action, repl, lost, detail, addr⟩,
    List.mem_append_right _ (List.mem_singleton.2 rfl), rfl, rfl, rfl, rfl⟩, fun i b hi hb => ?_⟩
  rw [oGet_oSet_other _ _ _ _ _ _ _ _ (okey_ne0 _ _ _ _ hb (by omega) (.inl hi))]
  exact (oGet_oSet_other { d with obj := o } 0x0300 1 (oGet d 0x0300 1 + 1) 0 i b 0 (okey_ne0 _ _ _ _ hb (by omega) (.inl hi))).trans
    (hk i b hi hb)

/-- Freezing a port that has nothing to answer (04 R141). -/
theorem freezePort_spec (d : Dev) (p cause seq : Nat) (hf : frozen d p = false) (ho : (port d p).outq = []) (hc : cause ≠ 6) :
    let e := freezePort d p cause seq
    frozen e p = true ∧ oGet e (0x1000 + p) 7 = cause ∧ (port e p).outq = [] ∧ (port e p).xfer = none ∧
    ¬ (e.ver.stage = .opened ∧ e.ver.owner = some p) ∧ (port e p).store = (port d p).store ∧
    (∃ x ∈ e.faults, x.kind = 7 ∧ x.unit = 0xC0 + p ∧ x.detail = cause ∧ x.addr = seq) := by
  intro e
  have he : e = freezePort d p cause seq := rfl
  unfold freezePort at he
  simp only [hf, Bool.false_eq_true, ite_false, if_neg hc] at he
  generalize h1 : bump (oSet (oSet d (0x1000 + p) 6 1) (0x1000 + p) 7 cause) (0x1000 + p) 9 = d1 at he
  obtain ⟨o, l, h2, hx, hk⟩ := addFault_spec d1 7 (0xC0 + p) 5 0xFF 0 cause seq (by omega)
  have p1 : port d1 p = port d p := by rw [← h1]; rfl
  have g6 : oGet d1 (0x1000 + p) 6 = 1 := by
    rw [← h1, bump, oGet_oSet_other _ _ _ _ _ _ _ _ (okey_ne0 _ _ _ _ (by omega) (by omega) (.inr (by omega))),
      oGet_oSet_other _ _ _ _ _ _ _ _ (okey_ne0 _ _ _ _ (by omega) (by omega) (.inr (by omega))), oGet_oSet_self]
  have g7 : oGet d1 (0x1000 + p) 7 = cause := by
    rw [← h1, bump, oGet_oSet_other _ _ _ _ _ _ _ _ (okey_ne0 _ _ _ _ (by omega) (by omega) (.inr (by omega))), oGet_oSet_self]
  have k6 := hk (0x1000 + p) 6 (by omega) (by omega)
  have k7 := hk (0x1000 + p) 7 (by omega) (by omega)
  rw [g6] at k6
  rw [g7] at k7
  rw [h2] at k6 k7 he
  generalize hd2 : ({ d1 with obj := o, faults := l } : Dev) = d2 at he k6 k7
  have p2 : port d2 p = port d p := by rw [← hd2]; exact p1
  have f2 : d2.faults = l := by rw [← hd2]
  rw [flushFrozen_idle _ _ (by show (port d2 p).outq = []; rw [p2, ho])] at he
  generalize hd3 : (dropStaging (modPort (modPort { d2 with live := d2.live.filter (fun w => w.port ≠ p) } p
    (fun x => { x with outq := [] })) p (fun x => { x with
      xfer := none, removeEvents := x.removeEvents || mediaRuns (modPort { d2 with live := d2.live.filter (fun w => w.port ≠ p) } p
    (fun x => { x with outq := [] })) })) p) = d3 at he
  obtain ⟨a, ha⟩ := freezeNotes_alloc d3 p
  rw [ha] at he
  have o3 : d3.obj = d2.obj := by rw [← hd3]; unfold dropStaging; split <;> rfl
  have f3 : d3.faults = d2.faults := by rw [← hd3]; unfold dropStaging; split <;> rfl
  have p3 : ∀ x, port d3 x = port (modPort (modPort { d2 with live := d2.live.filter (fun w => w.port ≠ p) } p
    (fun x => { x with outq := [] })) p (fun x => { x with
      xfer := none, removeEvents := x.removeEvents || mediaRuns (modPort { d2 with live := d2.live.filter (fun w => w.port ≠ p) } p
    (fun x => { x with outq := [] })) })) x := by
    intro x; rw [← hd3]; unfold dropStaging; split <;> rfl
  have v3 : ¬ (d3.ver.stage = .opened ∧ d3.ver.owner = some p) := by
    rw [← hd3]; unfold dropStaging; split
    · simp
    · assumption
  have pe : port e p = port d3 p := by rw [he]; rfl
  have oe : ∀ i b, oGet e i b = oGet d2 i b := fun i b => by
    have : e.obj = d2.obj := by rw [he]; exact o3
    unfold oGet; rw [this]
  refine ⟨(frozen_iff _ _).2 (by rw [oe, k6]), by rw [oe, k7], ?_, ?_, ?_, ?_, ?_⟩
  · rw [pe, p3]; simp
  · rw [pe, p3]; simp
  · rw [he]; exact v3
  · rw [pe, p3]
    simp only [port_modPort_self]
    show (port d2 p).store = _
    rw [p2]
  · rw [he]; show ∃ x ∈ d3.faults, _; rw [f3, f2]; exact hx

/-- What follows a violation: the port is frozen and the request answered. -/
theorem settleReq_violation {e d : Dev} {p svc : Nat} {f : Frame} {errs : List (Nat × Bool)} {c cause : Nat}
    (hp : p < 8) (hf : frozen d p = false) (ho : (port d p).outq = []) (h6 : cause ≠ 6) :
    Told (freezePort d p cause f.seq) (settleReq e p svc f errs (d, .violation cause c)) p f svc c [] := by
  obtain ⟨h1, _, h3, _⟩ := freezePort_spec d p cause f.seq hf ho h6
  exact settleReq_answer hp (fun _ => rfl) h3 (by simp [finish, answer, h3]) (by simp [accepted])

theorem item_not_rs : (objAt 0x5A01 9).map (fun r => decide (r.row.acc = .rs)) = some false := by decide

theorem take_not_rs : (objAt 0x5A01 0xA).map (fun r => decide (r.row.acc = .rs)) = some false := by decide

/-- The quota changes the port's bucket alone (04 R139). -/
theorem takeQuota_spec {d e : Dev} {p : Nat} (h : takeQuota d p = some e) :
    { e with ports := d.ports } = d ∧ (port e p).outq = (port d p).outq ∧ (port e p).xfer = (port d p).xfer := by
  unfold takeQuota at h
  split at h
  · cases h; exact ⟨rfl, rfl, rfl⟩
  · split at h
    · cases h
    · cases h; exact ⟨rfl, by simp, by simp⟩

/-- The port keeps its session and its selections. -/
theorem quota_port {d e : Dev} {p : Nat} (h : takeQuota d p = some e) : ∃ b, port e p = { port d p with bucket := b } := by
  unfold takeQuota at h
  split at h
  · cases h; exact ⟨(port d p).bucket, rfl⟩
  · split at h
    · cases h
    · cases h; exact ⟨_, port_modPort_self _ _ _⟩

theorem quota_selector {d e : Dev} {p : Nat} (h : takeQuota d p = some e) (w : Win) : selector e p w = selector d p w := by
  obtain ⟨b, hb⟩ := quota_port h
  cases w <;> simp [selector, hb]

theorem quota_mayWrite {d e : Dev} {p : Nat} (h : takeQuota d p = some e) (a : Acc) (i s : Nat) :
    mayWrite e p a i s = mayWrite d p a i s := by
  rw [← (takeQuota_spec h).1]; rfl

theorem quota_ungranted {d e : Dev} {p : Nat} (h : takeQuota d p = some e) (i s k : Nat) :
    ungranted e p i s k = ungranted d p i s k := by
  rw [← (takeQuota_spec h).1]; rfl

theorem quota_ver {d e : Dev} {p : Nat} (h : takeQuota d p = some e) : e.ver = d.ver := by
  rw [← (takeQuota_spec h).1]

theorem quota_obj {d e : Dev} {p : Nat} (h : takeQuota d p = some e) : e.obj = d.obj := by
  rw [← (takeQuota_spec h).1]

theorem vGet_vSet_self (v : Version) (i b x k : Nat) : vGet (vSet v i b x k) i b k = x := by
  show (mfind (mset _ v.vals _ x) _).getD _ = _
  rw [mfind_eq, mset_eq, mget_mput_self]

theorem vGet_vSet_other (v : Version) (i b x k i' b' k' : Nat) (h : okey i' b' k' ≠ okey i b k) :
    vGet (vSet v i b x k) i' b' k' = vGet v i' b' k' := by
  show (mfind (mset _ v.vals _ x) _).getD _ = (mfind v.vals _).getD _
  rw [mfind_eq, mset_eq, mfind_eq]; exact mget_mput_elsewhere _ _ _ _ _ _ h

/-- A staged write where the port may stage (04 R131). -/
theorem staged_own {d : Dev} {p : Nat} {r : ObjRef} {idx sub inst off : Nat} {data : List Byte} (ha : coreAway d idx = false)
    (h : (d.ver.stage = .idle ∧ d.ver.staging = none) ∨ (d.ver.stage = .opened ∧ d.ver.owner = some p ∧ d.ver.staging.isSome = true)) :
    stagedWrite d p r idx sub inst off data = (0, { d with ver := { d.ver with
      staging := some (putRs (d.ver.staging.getD { d.ver.active with num := d.ver.highest + 1 }) r idx sub inst off data)
      owner := some p, stage := .opened
      highest := if d.ver.staging.isSome then d.ver.highest else d.ver.highest + 1 } }) := by
  unfold stagedWrite
  rcases h with ⟨h1, h2⟩ | ⟨h1, h2, h3⟩
  · simp [ha, stageCode, h1, openStaging, h2, putStaging]
  · obtain ⟨v, hv⟩ := Option.isSome_iff_exists.1 h3
    simp only [ha, stageCode, h1, h2, openStaging, hv, putStaging]
    simp [← h1, ← h2]

/-- What follows a live write: it waits. -/
theorem settleReq_live {e d : Dev} {p svc : Nat} {f : Frame} {errs : List (Nat × Bool)} {w : Live}
    (ho : (port d p).outq = []) (hse : (port d p).session = true) (hf : frozen d p = frozen e p) :
    let u := settleReq e p svc f errs (d, .live w)
    u.live = d.live ++ [w] ∧ port u p = { port d p with outq := [.live f svc none] } ∧ (∀ q, q ≠ p → port u q = port d q) ∧
      { u with live := d.live, ports := d.ports } = d := by
  have hz : ∀ x : Port, { x with outq := x.outq ++ [] } = x := fun x => by simp
  have key : settleReq e p svc f errs (d, .live w) =
      modPort (queueOut { d with live := d.live ++ [w] } p (.live f svc none)) p (fun x => { x with outq := x.outq ++ [] }) := by
    unfold settleReq
    have hq : (port (modPort (queueOut { d with live := d.live ++ [w] } p (.live f svc none)) p
        (fun x => { x with outq := x.outq ++ [] })) p).outq = [.live f svc none] := by
      simp only [port_modPort_self, queueOut, List.append_nil]
      show (port d p).outq ++ _ = _
      simp [ho]
    have hs : (port (queueOut { d with live := d.live ++ [w] } p (.live f svc none)) p).session = true := by
      simp only [port_modPort_self, queueOut]; exact hse
    simp only [switchAnswered_other (show accepted svc (.live w) = false by simp [accepted]), finish, hs, ite_true]
    show pumpN errs 2 (if frozen d p && !frozen e p then _ else _) p = _
    rw [hf]
    simp only [Bool.and_not_self, Bool.false_eq_true, ite_false]
    rw [pumpN]
    simp only [pumpOnce, hq, splitLive, Option.map_none]
  intro u
  have hu : u = _ := key
  refine ⟨by rw [hu]; rfl, ?_, fun q hq => ?_, by rw [hu]; rfl⟩
  · rw [hu]
    simp only [port_modPort_self, queueOut, List.append_nil]
    have : port { d with live := d.live ++ [w] } p = port d p := rfl
    rw [this, ho]; rfl
  · rw [hu, port_modPort_other _ _ _ _ hq, queueOut, port_modPort_other _ _ _ _ hq]; rfl

/-- A request that is heard changes ports, Links and objects alone. -/
theorem heard_rest {s : State} {p svc : Nat} {f : Frame} {e : Dev} (h : Heard s p svc f e) :
    { e with ports := s.dev.ports, links := s.dev.links, obj := s.dev.obj } = s.dev := by
  obtain ⟨_, _, _, c, hc, _, _, rfl⟩ := h
  have : { c with ports := s.dev.ports, links := s.dev.links, obj := s.dev.obj } = s.dev := by
    unfold Arrives at hc
    split at hc
    · obtain ⟨_, _, _, ht⟩ := hc
      have hg : ∀ l node off, { (guardTest s.dev l node off).2 with ports := s.dev.ports, links := s.dev.links, obj := s.dev.obj } = s.dev := by
        intro l node off
        unfold guardTest
        split
        · dsimp only
          split <;> split <;> (try split) <;> rfl
        · rfl
      have hw : ∀ (x : Dev) l o b, { forwardFrame x l o b with links := s.dev.links } = { x with links := s.dev.links } := by
        intro x l o b; unfold forwardFrame; split <;> rfl
      unfold takeCredit at ht
      dsimp only at ht
      split at ht
      · cases ht
        have a := congrArg (fun x : Dev => { x with ports := s.dev.ports, obj := s.dev.obj })
          (hw (guardTest s.dev p f.node f.off).2 p f.node (svcFrame f.seq svc f.flags f.idx f.sub f.payload))
        exact (show _ = _ from a).trans (hg _ _ _)
      · cases ht
    · rw [hc]
  exact this
theorem mdel_idem {α : Type} (m : AMap α) (a : Nat) : mdel (mdel m a) a = mdel m a := by
  induction m with
  | nil => rfl
  | cons c r ih =>
    obtain ⟨k, v⟩ := c
    by_cases h : a = k
    · simp [mdel, h]; rw [← h]; exact ih
    · simp [mdel, h, ih]

theorem mins_idem {α : Type} (m : AMap α) (a : Nat) (v : α) : mins (mins m a v) a v = mins m a v := by
  induction m with
  | nil => simp [mins]
  | cons c r ih =>
    obtain ⟨k, w⟩ := c
    by_cases h2 : a = k
    · simp [mins, h2]
    · by_cases h : a < k
      · simp [mins, h, h2]
      · simp [mins, h, h2, ih]

theorem mput_idem {α : Type} [DecidableEq α] (d : α) (m : AMap α) (a : Nat) (v : α) : mput d (mput d m a v) a v = mput d m a v := by
  unfold mput; split
  · exact mdel_idem m a
  · exact mins_idem m a v

/-- Changing nothing of a port just changed. -/
theorem modPort_same (d : Dev) (p : Nat) (f g : Port → Port) (h : g (f (port d p)) = f (port d p)) :
    modPort (modPort d p f) p g = modPort d p f := by
  have : mmod Port.zero (mmod Port.zero d.ports p f) p g = mmod Port.zero d.ports p f := by
    unfold mmod
    rw [mget_mput_self]
    have h' : g (f (mget Port.zero d.ports p)) = f (mget Port.zero d.ports p) := h
    rw [h', mput_idem]
  show { d with ports := mmod Port.zero (mmod Port.zero d.ports p f) p g } = _
  rw [this]; rfl

/-- A live write that waits, as a device. -/
theorem settleReq_live' {e d : Dev} {p svc : Nat} {f : Frame} {errs : List (Nat × Bool)} {w : Live}
    (ho : (port d p).outq = []) (hse : (port d p).session = true) (hf : frozen d p = frozen e p) :
    settleReq e p svc f errs (d, .live w) = queueOut { d with live := d.live ++ [w] } p (.live f svc none) := by
  have hq : (port (modPort (queueOut { d with live := d.live ++ [w] } p (.live f svc none)) p
        (fun x => { x with outq := x.outq ++ [] })) p).outq = [.live f svc none] := by
      simp only [port_modPort_self, queueOut, List.append_nil]
      show (port d p).outq ++ _ = _
      simp [ho]
  unfold settleReq
  have hs : (port (queueOut { d with live := d.live ++ [w] } p (.live f svc none)) p).session = true := by
    simp only [port_modPort_self, queueOut]; exact hse
  simp only [switchAnswered_other (show accepted svc (.live w) = false by simp [accepted]), finish, hs, ite_true]
  show pumpN errs 2 (if frozen d p && !frozen e p then _ else _) p = _
  rw [hf]
  simp only [Bool.and_not_self, Bool.false_eq_true, ite_false]
  rw [pumpN]
  simp only [pumpOnce, hq, splitLive, Option.map_none]
  exact modPort_same _ _ _ _ (by simp)

/-- The request of a lone write: it waits as the cycle's write. -/
theorem alone_submit {s : State} {p : Nat} {f : Frame} {inst off : Nat} {d : Dev} (h : Alone s p f inst off d) :
    Awake s ∧ p < 8 ∧ (port s.dev p).outq = [] ∧ d.live = s.dev.live ∧ (port d p).outq = [.live f 2 none] ∧
    submit s.dev p 2 f [] = { d with live := d.live ++ [⟨p, 2, f, f.idx, f.sub, inst, off, f.payload⟩] } ∧
    (∀ w ∈ s.dev.live, ¬ (w.idx = f.idx ∧ w.sub = f.sub ∧ w.inst = inst)) ∧ d.power = s.dev.power := by
  obtain ⟨e, e1, r, h, hb, hf, ho, hr, hi, h0, ha, hro, hd, lawful⟩ := h
  obtain ⟨hs, ht, hw, hu, hq, hv, applied⟩ := lawful
  obtain ⟨hoff, hl, hn, hp1, hp2, rfl⟩ := applied
  have hq' := takeQuota_spec hq
  have hl1 : e1.live = s.dev.live := by
    rw [show e1.live = e.live by rw [← hq'.1]]
    have := heard_rest h
    rw [← this]
  have hpw : e1.power = s.dev.power := by
    rw [show e1.power = e.power by rw [← hq'.1]]
    have := heard_rest h
    rw [← this]
  have ho1 : (port e1 p).outq = [] := by rw [hq'.2.1]; exact heard_outq h
  have hx : execute e p 2 f e.time.anchor [] = (e1, .live ⟨p, 2, f, f.idx, f.sub, inst, off, f.payload⟩) := by
    have hars : r.row.acc ≠ .rs := by rcases ha with h | h <;> rw [h] <;> simp
    subst hi
    have hdw : doWrite e1 p f = (e1, .live ⟨p, 2, f, f.idx, f.sub, selector e p r.row.win, off, f.payload⟩) := by
      unfold doWrite
      rw [hr]
      dsimp only
      rw [quota_selector hq, quota_mayWrite hq, quota_ungranted hq, hw, hu]
      simp only [Bool.not_true, Bool.or_false, Bool.false_eq_true, ite_false, hro]
      have hobj : oGet e 0x0300 1 = oGet e1 0x0300 1 := by unfold oGet; rw [quota_obj hq]
      have hwo : writeObject e1 p f r (selector e p r.row.win) =
          (e1, .live ⟨p, 2, f, f.idx, f.sub, selector e p r.row.win, off, f.payload⟩) := by
        unfold writeObject
        rw [if_neg hars, hs]
        dsimp only
        rw [if_neg ht, ← hobj, ← hoff, hl]
        simp
      cases hty : r.row.ty <;> first | exact absurd hty (hd _) | (rw [hv]; exact hwo)
    simp [execute, charge, charged, hb, hf, hq, hdw]
  refine ⟨h.1, h.2.1, ho, hl1, ?_, ?_, hn, hpw⟩
  · simp [queueOut, ho1]
  · obtain ⟨b, hb'⟩ := quota_port hq
    rw [heard_submit h (by omega), hx, settleReq_live' ho1 (by rw [hb']; exact heard_session h) (by unfold frozen oGet; rw [quota_obj hq])]
    unfold askXoff
    rw [serviceFull_one _ _ (.live f 2 none) _ rfl]
    · rfl
    · simp only [queueOut, port_modPort_self]
      show (port e1 p).outq ++ _ = _
      rw [ho1]; rfl

/-- A lone write: it is applied, and answered with the code of its application. -/
theorem alone_reply {i : Instr} {s : State} {p : Nat} {f : Frame} {inst off : Nat} {d : Dev} (h : Alone s p f inst off d)
    (hi : exec i s = onAwake (fun d => writeNow d p f) s)
    (ho : (port (applyLive d p f.idx f.sub inst off f.payload).2 p).outq = [.live f 2 none])
    (hr : (applyLive d p f.idx f.sub inst off f.payload).2.power.resetReq = none)
    (hs : (applyLive d p f.idx f.sub inst off f.payload).2.power.sleepReq = false) :
    Reply i s (applyLive d p f.idx f.sub inst off f.payload).2 p f 2 (applyLive d p f.idx f.sub inst off f.payload).1 [] := by
  obtain ⟨haw, hp, hq, hlive, hdq, hsub, hn, _⟩ := alone_submit h
  have hwn : writeNow s.dev p f = takePower (settleLast { d with live := d.live ++ [⟨p, 2, f, f.idx, f.sub, inst, off, f.payload⟩] }) := by
    unfold writeNow
    rw [hsub]
    dsimp only
    rw [if_pos ⟨hq, by rw [hlive]; simp⟩]
  generalize hw : (⟨p, 2, f, f.idx, f.sub, inst, off, f.payload⟩ : Live) = w at hwn
  have hany : d.live.any w.same = false := by
    rw [List.any_eq_false]
    intro x hx
    have := hn x (by rw [← hlive]; exact hx)
    rw [← hw]
    simp only [Live.same, Bool.and_eq_true, beq_iff_eq]
    intro hh
    exact this ⟨hh.1.1.symm, hh.1.2.symm, hh.2.symm⟩
  have hwin : ∀ d, winner d [w] w = w.port := by
    intro d
    have : w.same w = true := by simp [Live.same]
    simp [winner, this, bestBy]
  have hset : settleLast { d with live := d.live ++ [w] } =
      pump (modPort (applyLive d p f.idx f.sub inst off f.payload).2 p (fun x => { x with
        outq := answerLive (applyLive d p f.idx f.sub inst off f.payload).1 x.outq })) p [] := by
    unfold settleLast
    simp only [List.getLast?_append, List.getLast?_singleton, Option.some_or, List.dropLast_concat]
    simp only [hany, Bool.false_eq_true, ite_false, resolveList, resolveOne]
    simp only [hwin, ne_eq, not_true_eq_false, ite_false, List.any_nil, Bool.false_eq_true]
    rw [← hw]
  generalize hx : applyLive d p f.idx f.sub inst off f.payload = x at *
  have hpump : pump (modPort x.2 p (fun y => { y with outq := answerLive x.1 y.outq })) p [] =
      respond (modPort (modPort x.2 p (fun y => { y with outq := answerLive x.1 y.outq })) p (fun y => { y with outq := [] })) p f 2 x.1 [] := by
    have h1 : (port (modPort x.2 p (fun y => { y with outq := answerLive x.1 y.outq })) p).outq = [.live f 2 (some x.1)] := by
      simp [ho, answerLive]
    unfold pump
    rw [h1]
    show pumpN [] 3 _ p = _
    rw [pumpN]
    simp only [pumpOnce, h1]
    exact pumpN_idle _ _ _ _ (by
      rw [(respond_told (modPort (modPort x.2 p (fun y => { y with outq := answerLive x.1 y.outq })) p (fun y => { y with outq := [] }))
        p f 2 x.1 [] hp (fun _ => rfl) (by simp)).1])
  rw [hpump] at hset
  have ht := respond_told (modPort (modPort x.2 p (fun y => { y with outq := answerLive x.1 y.outq })) p (fun y => { y with outq := [] }))
    p f 2 x.1 [] hp (fun _ => rfl) (by simp)
  rw [hset] at hwn
  refine ⟨{ s with dev := writeNow s.dev p f }, ⟨?_, rfl⟩, ?_⟩
  · rw [hi, onAwake_next haw]
  · rw [hwn]
    have hpow : ∀ z : Dev, (respond z p f 2 x.1 []).power = z.power := by
      intro z; unfold respond sendResp sendFrame; dsimp only
      split
      · rfl
      · split
        · rfl
        · split <;> rfl
    have htp : takePower (respond (modPort (modPort x.2 p (fun y => { y with outq := answerLive x.1 y.outq })) p (fun y => { y with outq := [] })) p f 2 x.1 []) =
       respond (modPort (modPort x.2 p (fun y => { y with outq := answerLive x.1 y.outq })) p (fun y => { y with outq := [] })) p f 2 x.1 [] := by
      unfold takePower
      have a1 := hpow (modPort (modPort x.2 p (fun y => { y with outq := answerLive x.1 y.outq })) p (fun y => { y with outq := [] }))
      rw [a1]
      split
      · show (match x.2.power.resetReq with | some v => _ | none => if x.2.power.sleepReq = true then _ else _) = _
        rw [hr, hs]; rfl
      · rfl
    rw [htp]
    obtain ⟨t1, t2, t3, t4, t5, t6, t7⟩ := ht
    have hse : ∀ c, sends (modPort (modPort x.2 p (fun y => { y with outq := answerLive x.1 y.outq })) p
        (fun y => { y with outq := [] })) p f c = sends x.2 p f c := fun c => by simp [sends]
    rw [hse] at t1 t3 t4 t5 t6
    refine ⟨by rw [t1]; simp, fun q hq => ?_, t3, t4, t5, t6, ?_⟩
    · rw [t2 q hq, port_modPort_other _ _ _ _ hq, port_modPort_other _ _ _ _ hq]
    · have b := congrArg (fun z : Dev => { z with ports := x.2.ports }) t7
      exact (show _ = _ from b)

end Sys2Proof.Laws
end

