-- ==== Sys2Proof/Tests/Slice0.lean ====
section
/-!
SUPPORT. Sys2Proof/Tests/Slice0.lean: ill-formed commands that WellFormed refuses, words of Marrow instructions written out
from the encoding tables of 15, worked values of the spec, and for every statement that has hypotheses a state and operands
that meet them (one `witness_<Name>` for each; those of the instruction statements that ask for Dispatched alone share
`witness_dispatched`).
-/
namespace Sys2Proof.Tests

set_option Elab.async false
open Sys2Proof Machine

/-! ### Well-formedness -/

theorem test_core_out_of_range : Instr.wellFormed (.add 20 1 2 3) = false ∧ Instr.wellFormed (.add 19 1 2 3) = true := by decide
theorem test_port_out_of_range : Instr.wellFormed (.eventQueueEntry 8) = false ∧ Instr.wellFormed (.eventQueueEntry 7) = true := by
  decide
/-- 15 R440: an odd register of a pair; R449: an immediate in mode 0; R458: k without L; R448: an immediate with SRC 0. -/
theorem test_fields_outside_their_form :
    Instr.wellFormed (.ldd 0 ⟨3, 0, 0, false, 0⟩ .ok) = false ∧ Instr.wellFormed (.ldd 0 ⟨4, 0, 0, false, 0⟩ .ok) = true ∧
    Instr.wellFormed (.ldw 0 ⟨3, 0, 0, false, 4⟩ .ok) = false ∧ Instr.wellFormed (.ldw 0 ⟨3, 0, 2, false, 4⟩ .ok) = true ∧
    Instr.wellFormed (.vmac 0 ⟨0, 0, 0, 1, false, false, false⟩) = false ∧
    Instr.wellFormed (.vmac 0 ⟨0, 0, 0, 1, false, false, true⟩) = true ∧
    Instr.wellFormed (.amod 0 0 false 1) = false ∧ Instr.wellFormed (.amod 0 0 true 1) = true ∧
    Instr.wellFormed (.kUndefined 0 9) = false ∧ Instr.wellFormed (.kUndefined 0 10) = true := by decide

/-- The device awake, with a session on UART port 4. -/
def host : Dev := modPort { Dev.reset with power := { Dev.reset.power with phase := .awake } } 4 (fun x => { x with session := true })

/-- An RS value of the active version. -/
def put (idx sub inst x : Nat) (d : Dev) : Dev := { d with ver := { d.ver with active := vSet d.ver.active idx sub x inst } }

/-- Core n runs thread t with registers r. -/
def runs (n t : Nat) (r : Regs) (d : Dev) : State :=
  ⟨[], modCore (modThr d t (fun x => { x with st := .running, regs := r })) n (fun c => { c with run := some t })⟩

/-- The device of a request heard on a UART port. -/
def ear (d : Dev) (p svc : Nat) (f : Frame) : Dev :=
  modPort (queueOut d p (.req svc f d.time.anchor)) p (fun x => { x with outq := [] })

/-- What Heard asks of a device on a UART port. -/
def heardB (d : Dev) (p : Nat) (f : Frame) : Bool :=
  decide (d.power.phase = .awake ∧ p < 8 ∧ 4 ≤ p ∧ (port d p).session = true ∧ (port d p).outq = [] ∧ keptResp d p f = none)

/-- A heard request. -/
theorem heard_of {d : Dev} {p svc : Nat} {f : Frame} (h : heardB d p f = true) : Heard ⟨[], d⟩ p svc f (ear d p svc f) :=
  have up := of_decide_eq_true h
  ⟨up.1, up.2.1, up.2.2.2.1, d, by rw [Arrives, if_neg (Nat.not_lt.2 up.2.2.1)], up.2.2.2.2.1, up.2.2.2.2.2, rfl⟩

def isDom : Ty → Bool
  | .dom _ => true
  | _ => false

theorem isDom_false {t : Ty} : isDom t = false ↔ ∀ n, t ≠ .dom n := by cases t <;> simp [isDom]

/-- What Alone asks of the object that a WRITE names, once its quota is taken. -/
def lawfulB (d e e1 : Dev) (r : ObjRef) (p : Nat) (f : Frame) (inst : Nat) : Bool :=
  decide (inst = selector e p r.row.win ∧ f.sub ≠ 0 ∧ (r.row.acc = .rw ∨ r.row.acc = .wo) ∧ readOnly (accAt r inst) = false ∧
    isDom r.row.ty = false ∧ selectorOf f.idx f.sub = none ∧ ¬ (f.idx = 0x5A01 ∧ f.sub = 0x0A) ∧
    mayWrite e p (accAt r inst) f.idx f.sub = true ∧ ungranted e p f.idx f.sub inst = false ∧ valueTest r inst f.payload = none ∧
    liveCode e1 f.idx f.sub inst (if f.idx = 0x0300 then oGet e 0x0300 1 else 0) f.payload = 0 ∧
    d.live = [] ∧ d.power.resetReq = none ∧ d.power.sleepReq = false)

def aloneB (d : Dev) (p : Nat) (f : Frame) (inst : Nat) : Bool :=
  let e := ear d p 2 f
  heardB d p f && (!(badFrame 2 f || frozen e p) &&
    match objAt f.idx f.sub, takeQuota e p with
    | some r, some e1 => lawfulB d e e1 r p f inst
    | _, _ => false)

theorem alone_of {d : Dev} {p : Nat} {f : Frame} {inst : Nat} (h : aloneB d p f inst = true) :
    ∃ off e, Alone ⟨[], d⟩ p f inst off e := by
  have hear := (Bool.and_eq_true_iff.1 h).1
  have rest := (Bool.and_eq_true_iff.1 h).2
  have whole : badFrame 2 f = false ∧ frozen (ear d p 2 f) p = false := by simpa using (Bool.and_eq_true_iff.1 rest).1
  have law := (Bool.and_eq_true_iff.1 rest).2
  split at law
  case h_2 => cases law
  case h_1 r e1 hr he =>
    have ok := of_decide_eq_true law
    have outq := (of_decide_eq_true hear).2.2.2.2.1
    rw [isDom_false] at ok
    clear law rest h
    obtain ⟨rfl, ok⟩ := ok
    refine ⟨if f.idx = 0x0300 then oGet (ear d p 2 f) 0x0300 1 else 0, queueOut e1 p (.live f 2 none), ear d p 2 f, e1, r, heard_of hear, ?_⟩
    simp_all

def h0 : Hdr := ⟨0, 0, 1, 0⟩
/-! ### Words of Marrow instructions -/

/-- 15 R442-R447: NOP, the worked example of R456, and one word of each scalar and control format. -/
theorem test_decode_scalar :
    decodeMarrow 1 0x04000000 [] = .add 1 0 0 0 ∧ decodeMarrow 1 0x08840002 [] = .addi 1 4 4 2 ∧
    decodeMarrow 1 0x00800000 [] = .fenceI 1 ∧ decodeMarrow 1 0x00C18010 [] = .rep 1 3 16 ∧
    decodeMarrow 1 0x01840000 [] = .mts 1 2 ∧ decodeMarrow 1 0x04220013 [] = .clz 1 1 2 ∧
    decodeMarrow 1 0x43001FFF [] = .br 1 12 0x1FFF ∧ decodeMarrow 1 0x44000123 [] = .jmp 1 0x123 ∧
    decodeMarrow 1 0x4BE00005 [] = .jal 1 31 5 ∧ decodeMarrow 1 0x4C070000 [] = .jr 1 7 := by decide

/-- 15 R448-R456: one word of each address, memory, atomic and program-memory format. -/
theorem test_decode_memory :
    decodeMarrow 1 0x80BB8000 [] = .amov 1 5 3 3 true ∧ decodeMarrow 1 0x8540FFFC [] = .amod 1 2 true 0xFFFC ∧
    decodeMarrow 1 0x61264004 [] = .ldw 1 ⟨9, 1, 2, false, 4⟩ .ok ∧
    decodeMarrow 1 0x6CC00000 [] = .vst 1 ⟨6, 0, 0, false, 0⟩ .ok .ok ∧
    decodeMarrow 1 0x70228600 [] = .cas 1 ⟨1, 2, 4, false, true⟩ .ok ∧
    decodeMarrow 1 0x70032B00 [] = .cadd 1 3 1 true ∧ decodeMarrow 1 0x74700201 [] = .stp 1 3 false 0 0x201 := by decide

/-- 15 R457-R463: one word of each vector format. -/
theorem test_decode_vector :
    decodeMarrow 1 0xA004B299 [] = .vmacs 1 ⟨1, 2, 3, 5, false, true, true⟩ ∧
    decodeMarrow 1 0xA404600A [] = .vwmsu 1 ⟨1, 1, true, false, true⟩ ∧
    decodeMarrow 1 0xA9002C05 [] = .vextr 1 ⟨4, 2, 0x18, true, false, true⟩ ∧
    decodeMarrow 1 0xAC48018B [] = .vsrr 1 1 2 3 ∧ decodeMarrow 1 0xB8081781 [] = .acld 1 1 2 15 ∧
    decodeMarrow 1 0xB0024C03 [] = .vrot 1 1 2 3 ∧ decodeMarrow 1 0xB6D40400 [] = .bnorm 1 3 5 1 [] ∧
    decodeMarrow 1 0xB4E00000 [] = .bexp 1 7 := by decide

/-- 15 R441: an opcode that is not listed, a field that is not 0, and an odd register of a pair are undefined words. -/
theorem test_decode_undefined :
    decodeMarrow 1 0xFC000000 [] = .undefinedInstruction 1 ∧ decodeMarrow 1 0x04000040 [] = .undefinedInstruction 1 ∧
    decodeMarrow 1 0x60205000 [] = .undefinedInstruction 1 := by decide

/-! ### Numbers -/

/-- 03 R96-R98: the check values, the ties and the gain stage of the worked example. -/
theorem test_rounding_and_crcs :
    crc32c [0x31, 0x32, 0x33, 0x34, 0x35, 0x36, 0x37, 0x38, 0x39] = 0xE3069283 ∧
    crc32 [0x31, 0x32, 0x33, 0x34, 0x35, 0x36, 0x37, 0x38, 0x39] = 0xCBF43926 ∧
    rndConv 5 1 = 2 ∧ rndConv 7 1 = 4 ∧ rndConv (-3) 1 = -2 ∧ rndConv 0x2C0000000 31 = 6 ∧ rndConv 0x2BFFFFFFF 31 = 5 ∧
    sat (rndConv (0x60000000 * 0x18000000) 28) 32 = 0x7FFFFFFF := by decide +kernel

/-- 06, 07, 08: A4 at 48 kHz, tan(π/8), the pan of a centred voice, the power of the exponential release. -/
theorem test_tables :
    oscInc (put 0x2010 1 0 1 host) 0 = 2580187286514 ∧ tanGain (2 ^ 30) = 889516852 ∧
    panGains 0 true 0 = (1518500250, 1518500250) ∧ pw31 (-76800) = 2146030505 := by decide +kernel

/-- 02 R56-R58: the Link time stamp of the worked example. -/
theorem test_link_time_stamp :
    toSix (oSet (put 0x2010 1 0 1 host) 0x2020 5 885443715538058) (2000000000, 96000 * 65536) 2000600000 = 96028 := by decide +kernel

/-- 14 R428: the delay line of 150 vectors. 13 R372: banks of the three words. -/
theorem test_circular_buffer_and_banks :
    stepped { Regs.init 0 with ad := [(2, 0x8950)], bs := [(2, 0x8000)], ln := [(2, 2400)] } 2 16 = 0x8000 ∧
    stepped { Regs.init 0 with ad := [(2, 0x8010)], bs := [(2, 0x8000)], ln := [(2, 2400)] } 2 (-48) = 0x8940 ∧
    gBank 0xC99400 = 25 ∧ gBank 0xD20A98 = 26 ∧ gBank 0x801314 = 16 := by decide +kernel

/-- 21 R640: the bytes of the stuffed request before its CRC. -/
theorem test_stuffed_request :
    stuff (put 0x7E00 7 0 1 host) 0 [0x11, 0x7E, 1, 0, 0, 0, 1, 0] =
      [0x7E, 0x7D, 0x31, 0x7D, 0x5E, 1, 0, 0, 0, 1, 0, 0x7E] := by decide +kernel

/-! ### Witnesses of the hypotheses -/

theorem dispatched_of {s : State} {n t : Nat} (h : (decide (s.dev.power.phase = .awake) && decide ((coreOf s.dev n).run = some t) &&
    decide ((thr s.dev t).st = .running)) = true) : Dispatched s n t := by
  simp only [Bool.and_eq_true, decide_eq_true_eq] at h
  exact ⟨h.1.1, h.1.2, h.2⟩

/-- Registers with AD0 = a, G2 = x, G3 = y. -/
def regs (a x y : Nat) : Regs :=
  { Regs.init 5 with ad := [(0, BitVec.ofNat 32 a)], g := [(2, BitVec.ofNat 32 x), (3, BitVec.ofNat 32 y)] }

/-- A window with every right over Gourd from base upward, for core 0. -/
def window (base : Nat) (d : Dev) : Dev := put 0x5003 1 0 base (put 0x5003 2 0 0x1000 (put 0x5003 3 0 15 d))

/-- Thread 3 on core 0, with a window over the user area, runs with AD0 = a. -/
def user (a x y : Nat) : State := runs 0 3 (regs a x y) (window 0xD40000 host)

/-- The same in a block. -/
def block (used : Nat) (a x y : Nat) (d : Dev) : State :=
  runs 0 3 (regs a x y) (modCore d 0 (fun c => { c with txn := some ⟨0, 0, 3, 0, used, [], [], [], [], [], [], [], none⟩ }))

/-- For every statement of an instruction that asks for Dispatched alone, and the branch of each of its clauses. -/
theorem witness_dispatched : Dispatched (user 0 0 0) 0 3 ∧ Dispatched (block 0 0 0 0 host) 0 3 := by
  constructor <;> exact dispatched_of (by decide +kernel)

/-- BranchesAndJumps: cond 14 is taken, cond 0 with Z = 0 is not; ExtractAndAccumulators, WideExtract: k = -8 is inside, -9 outside. -/
theorem witness_field_clauses : (regsOf (user 0 0 0) 3).st.getLsbD 1 = false ∧ (0x18 : BitVec 5).toInt = -8 ∧
    (0x17 : BitVec 5).toInt = -9 := by decide +kernel

/-- LoadsOfLocalMemory, StoresToLocalMemory: the highest vector of local memory, with no constant area, and an access of each length. -/
theorem witness_LoadsOfLocalMemory : Dispatched (user 0x1FFF0 0 0) 0 3 ∧ FieldsM ⟨4, 0, 0, false, 0⟩ ∧
    addrM (regsOf (user 0x1FFF0 0 0) 3) ⟨4, 0, 0, false, 0⟩ = 0x1FFF0 ∧ constLen (user 0x1FFF0 0 0).dev 0 = 0 ∧
    0x1FFF0 + 16 ≤ 0x20000 ∧ 0x1FFF0 % 16 = 0 ∧ (4 : BitVec 5).getLsbD 0 = false := by
  refine ⟨dispatched_of (by decide +kernel), .inl rfl, ?_⟩; decide +kernel
theorem witness_StoresToLocalMemory : Dispatched (user 0x1FFF0 0 0) 0 3 ∧ FieldsM ⟨4, 0, 0, false, 0⟩ ∧
    constLen (user 0x1FFF0 0 0).dev 0 ≤ addrM (regsOf (user 0x1FFF0 0 0) 3) ⟨4, 0, 0, false, 0⟩ := by
  refine ⟨dispatched_of (by decide +kernel), .inl rfl, ?_⟩; decide +kernel

/-- DirectLoadsOfGourd, DirectStoresToGourd: the first word of the user area through a window with every right, whole and poisoned. -/
def gourdUser : State := user 0x40D40000 0 0
def poisoned : State := ⟨[], { gourdUser.dev with gourd := { gourdUser.dev.gourd with poison := [0x1A8000] } }⟩
theorem witness_DirectLoadsOfGourd : Dispatched gourdUser 0 3 ∧ Dispatched poisoned 0 3 ∧ FieldsM ⟨4, 0, 0, false, 0⟩ ∧
    addrM (regsOf gourdUser 3) ⟨4, 0, 0, false, 0⟩ - 0x40000000 = 0xD40000 ∧
    winAllows gourdUser.dev 0 0xD40000 8 0 = true ∧ inUserArea gourdUser.dev 0xD40000 8 = true ∧
    (coreOf gourdUser.dev 0).txn = none ∧ isPoisoned gourdUser.dev 0xD40000 = false ∧ isPoisoned poisoned.dev 0xD40000 = true := by
  refine ⟨dispatched_of (by decide +kernel), dispatched_of (by decide +kernel), .inl rfl, ?_⟩; decide +kernel
theorem witness_DirectStoresToGourd : Dispatched gourdUser 0 3 ∧ storeOk gourdUser.dev 0 0xD40000 8 = true ∧
    storeOk poisoned.dev 0 0xD40000 8 = true ∧ (coreOf gourdUser.dev 0).txn = none ∧ gQuad 0xD40000 ≠ 0 / 5 := by
  refine ⟨dispatched_of (by decide +kernel), ?_⟩; decide +kernel

/-- TransactionalStoresAreStaged: a block with room for one entry more. -/
theorem witness_TransactionalStoresAreStaged : let s := block 255 0x40D40000 0 0 (window 0xD40000 host)
    Dispatched s 0 3 ∧ (∃ x, (coreOf s.dev 0).txn = some x ∧ x.used < 256) ∧ storeOk s.dev 0 0xD40000 8 = true ∧
    storeOk s.dev 0 0xD40008 8 = true := by
  refine ⟨dispatched_of (by decide +kernel), ⟨_, rfl, by decide⟩, ?_⟩; decide +kernel

/-- RefusedAccesses: an odd address, one beyond local memory, one that crosses its end and the end of Gourd. -/
theorem witness_RefusedAccesses : FieldsM ⟨4, 0, 0, false, 0⟩ ∧ (∀ a ∈ [1, 0x20000, 0x1FFFC, 0x41FFFFFC, 0x42000000],
    addrM (regsOf (user a 0 0) 3) ⟨4, 0, 0, false, 0⟩ = a) ∧ Dispatched (user 1 0 0) 0 3 := by
  refine ⟨.inl rfl, by decide +kernel, dispatched_of (by decide +kernel)⟩

/-- DirectAtomics, TransactionalAddsAreStaged: an aligned word with AT, and a whole buffer of the bus through a window with CA. -/
theorem witness_DirectAtomics : Dispatched gourdUser 0 3 ∧ (coreOf gourdUser.dev 0).txn = none ∧
    winAllows gourdUser.dev 0 0xD40000 8 2 = true ∧ inUserArea gourdUser.dev 0xD40000 8 = true := by
  refine ⟨dispatched_of (by decide +kernel), ?_⟩; decide +kernel
theorem witness_TransactionalAddsAreStaged : let s := block 255 0x40D40000 0 0 (window 0xD40000 host)
    let c := block 240 0x40D20000 0x1FF80 0 (window 0xD20000 host)
    Dispatched s 0 3 ∧ winAllows s.dev 0 0xD40000 8 2 = true ∧ Dispatched c 0 3 ∧ blockLen c.dev = 16 ∧
    inBus c.dev 0xD20000 128 = true ∧ winAllows c.dev 0 0xD20000 128 3 = true ∧ 0x1FF80 + 128 ≤ 0x20000 := by
  refine ⟨dispatched_of (by decide +kernel), by decide +kernel, dispatched_of (by decide +kernel), ?_⟩; decide +kernel

/-- Kernel calls: a granted and an ungranted queue and counter, a queue with and without room, a POST of each code. -/
def kernel (x y : Nat) (d : Dev) : State := runs 0 3 (regs 0 x y) (put 0x5801 8 3 200 (put 0x5801 9 3 10 (put 0x5801 1 3 1 (put 0x5801 3 3 0 d))))
theorem witness_KernelCallsThatOnlyAnswer : Dispatched (kernel 2051 0 host) 0 3 ∧ queueGranted (kernel 2051 0 host).dev 3 2051 = true ∧
    queueGranted (kernel 2052 0 host).dev 3 2052 = false ∧ (coreOf (block 0 0 2051 0 host).dev 0).txn.isSome = true := by
  refine ⟨dispatched_of (by decide +kernel), ?_⟩; decide +kernel
theorem witness_SignalCountsDown : let s (v : Nat) := kernel 209 0 (setCntRaw host 209 v)
    Dispatched (s 1) 0 3 ∧ counterGranted (s 1).dev 3 209 = true ∧ counterGranted (s 1).dev 3 210 = false ∧
    cnt (s 0).dev 209 = 0 ∧ cnt (s 1).dev 209 = 1 ∧ cnt (s 2).dev 209 = 2 ∧ (coreOf (s 1).dev 0).txn = none := by
  refine ⟨dispatched_of (by decide +kernel), ?_⟩; decide +kernel
theorem witness_QueueCallsOutsideBlocks : let full := put 0x5A01 2 2051 1 (qPush host 2051 5)
    Dispatched (kernel 2051 0 host) 0 3 ∧ 0 < qDepth host 2051 ∧ (queueOf host 2051).items = [] ∧
    qDepth full 2051 ≤ (queueOf full 2051).items.length ∧ flowFor host 2051 = none := by
  refine ⟨dispatched_of (by decide +kernel), ?_⟩; decide +kernel
theorem witness_PostEntersOneItem : let d := put 0x3000 1 0 1 (oSet host 0x2000 2 2)
    Dispatched (kernel 0 0 d) 0 3 ∧ mediaState host = 0 ∧ mediaState d = 2 ∧ partOn d 0 = true ∧ partOn host 0 = false ∧
    umpClass 0x20B00740 = some 0 ∧ rangeTakes d 0 0x20B00740 0 = true ∧ 0 < qRoom d 0 ∧ umpClass 0 = none := by
  refine ⟨dispatched_of (by decide +kernel), ?_⟩; decide +kernel
theorem witness_DispatchesThatEnd : let s := kernel 209 0 (setCntRaw (put 0x5801 0x0C 3 205 host) 205 1)
    let z := kernel 209 0 (setCntRaw host 209 1)
    Dispatched s 0 3 ∧ (coreOf s.dev 0).txn = none ∧ (thr s.dev 3).flow = none ∧ (thr s.dev 3).conf = false ∧ tOn s.dev 3 = true ∧
    tf s.dev 3 3 = 0 ∧ coreIn s.dev 0 = true ∧ (coreOf s.dev 0).stopped = false ∧ tf s.dev 0x0D 3 = 0xFFFF ∧
    tf s.dev 0x0C 3 = 205 ∧ cnt s.dev 205 = 1 ∧ tf z.dev 0x0C 3 = 0xFFFF ∧ cnt z.dev 209 = 1 ∧ cnt s.dev 209 = 0 ∧
    0 < rs s.dev 0x5E00 1 := by
  refine ⟨dispatched_of (by decide +kernel), ?_⟩; decide +kernel
theorem witness_KernelCallsInBlocks : let s := runs 0 3 (regs 0 209 0) (put 0x5801 8 3 200 (put 0x5801 9 3 10 (block 255 0 0 0 host).dev))
    Dispatched s 0 3 ∧ (∃ x, (coreOf s.dev 0).txn = some x ∧ x.used < 256) ∧ counterGranted s.dev 3 209 = true ∧
    queueGranted s.dev 3 2051 = true := by
  refine ⟨dispatched_of (by decide +kernel), ⟨_, rfl, by decide⟩, ?_⟩; decide +kernel

/-- A request frame of port 4. -/
def req (idx sub : Nat) (b : List Byte) (flags : Nat) : Frame := ⟨0, 0, 1, flags, idx, sub, b⟩

/-- The rights of port 4, a frozen port, versions of its own and of others, the media in state st. -/
def weak : Dev := put 0x1004 1 0 0 host
def frozenHost : Dev := oSet (oSet host 0x1004 6 1) 0x1004 7 4
def staged (p : Nat) (st : Stage) : Dev := { host with ver := { host.ver with
  staging := some { Version.zero with num := 1 }, owner := some p, stage := st, switchAt := none, highest := 1 } }
def previous : Dev := { host with ver := { host.ver with previous := some Version.zero } }
def media (st : Nat) (d : Dev) : Dev := oSet d 0x2000 2 st

theorem heard_taken {d : Dev} {p svc : Nat} {f : Frame} (h : heardB d p f = true) (hb : badFrame svc f = false)
    (hf : frozen d p = false) : Heard ⟨[], d⟩ p svc f (ear d p svc f) ∧ Taken (ear d p svc f) p svc f :=
  ⟨heard_of h, hb, .inl hf⟩

/-- ReadsAnswerValues, SubscriptionsIdentityAndUnfreeze, EventRequests, VersionRequestsAreAnswered: each request is heard, well
formed and taken, on a running media and on a stopped one. -/
theorem witness_requests : frozen host 4 = false ∧ (∀ d ∈ [host, media 2 host, previous, staged 4 .opened, staged 5 .opened,
      staged 4 .commitPending], ∀ x ∈ [(1, req 0x2020 1 [] 0), (3, req 0x4000 1 [0, 8, 0, 0, 56] 0),
      (5, req 0 0 [0, 0, 0, 0, 0, 0, 0, 0] 0), (6, req 0 0 [0, 0, 0, 0, 0, 0, 0, 0] 0), (7, req 0 0 [] 0),
      (8, req 0x2020 9 [0, 1, 0] 0), (9, req 0 0 [] 0), (9, req 0x2020 9 [] 0),
      (10, req 0 0 [0, 0, 0, 0, 0, 0, 0, 0, 0, 0, 0, 0, 0x40, 7, 0xB0, 0x20] 0), (11, req 0 0 [4] 0), (12, req 0 0 [] 0)],
      heardB d 4 x.2 = true ∧ badFrame x.1 x.2 = false) := by decide +kernel

/-- ReadsAnswerValues: an unknown object, a WO one, an RC one, an RS scalar, a byte block at its end and beyond it. -/
theorem witness_ReadsAnswerValues : objAt 0x2030 0x55 = none ∧ (objAt 0x6801 0x0B).map (accAt · 0) = some .wo ∧
    (objAt 0x1100 0x1B).map (accAt · 0) = some .rc ∧ (objAt 0x3000 2).map (accAt · 0) = some .rs ∧
    (objAt 0x4000 1).map (·.row.ty) = some (.dom 2048) ∧ mayRead host 4 0x4000 = true ∧
    (objAt 0x4000 1).map (fun r => domLen host r 0x4000 0) = some 2048 := by decide +kernel

/-- ViolationsFreezeThePort: without RD, and without the right of the access code. -/
theorem witness_ViolationsFreezeThePort : heardB weak 4 (req 0x3000 2 [5, 0] 0) = true ∧ badFrame 1 (req 0x3000 2 [] 0) = false ∧
    heardB weak 4 (req 0x3000 2 [] 0) = true ∧ badFrame 2 (req 0x3000 2 [5, 0] 0) = false ∧ frozen weak 4 = false ∧
    mayRead weak 4 0x3000 = false ∧ (objAt 0x3000 2).map (fun r => mayWrite weak 4 (accAt r 0) 0x3000 2) = some false := by decide +kernel

/-- WritesOfStagedObjects: an RS scalar at its greatest value and beyond, own, foreign and pending versions, and a transfer of one
segment and of two. -/
theorem witness_WritesOfStagedObjects : let f (v : Byte) : Frame := req 0x3000 2 [255, v] 0
    let one := req 0x4000 1 [0, 0, 0, 0, 1] 12
    let two := req 0x4000 1 [0xFF, 7, 0, 0, 1] 4
    (∀ d ∈ [host, staged 4 .opened, staged 5 .opened, staged 4 .commitPending, staged 4 .revertPending], heardB d 4 (f 7) = true ∧
      mayWrite d 4 .rs 0x3000 2 = true ∧ (takeQuota (ear d 4 2 (f 7)) 4).isSome = true ∧ coreAway d 0x3000 = false) ∧
    (objAt 0x3000 2).map (fun r => valueTest r 0 (f 7).payload) = some none ∧
    (objAt 0x3000 2).map (fun r => valueTest r 0 (f 8).payload) = some (some false) ∧
    (∀ x ∈ [one, two], heardB host 4 x = true ∧ badFrame 4 x = false ∧ segmentOk host 4 x = true ∧ (port host 4).xfer = none ∧
      (objAt 0x4000 1).map (fun r => decide (domLen host r 0x4000 0 < fieldAt x.payload 0 4 + 1)) = some false) := by decide +kernel

/-- LiveWritesWaitForTheCycleEnd: a value, a whole byte block, and two writes of one object by two ports. -/
theorem witness_LiveWritesWaitForTheCycleEnd : aloneB host 4 (writeFrame h0 0x2020 0x0C 8 0) 0 = true ∧
    (let f := req 0x5002 1 [0, 0, 0, 0, 1, 2, 3, 4] 12
     heardB host 4 f = true ∧ badFrame 4 f = false ∧ mayWrite host 4 .rw 0x5002 1 = true ∧
     liveCode host 0x5002 1 0 0 [1, 2, 3, 4] = 0 ∧ (port host 4).xfer = none ∧ intoConst host 0x5002 0 = false) ∧
    (let a : Live := ⟨4, 2, writeFrame h0 0x2020 0x0C 8 5, 0x2020, 0x0C, 0, 0, toLE 8 5⟩
     let b : Live := { a with port := 5 }
     let d : Dev := { modPort (modPort (put 0x1005 2 0 9 host) 4 (fun x => { x with outq := [.live a.frame 2 none] })) 5
       (fun x => { x with outq := [.live a.frame 2 none] }) with live := [a, b] }
     a.same b = true ∧ rs d 0x1004 2 < rs d 0x1005 2 ∧ (port d 4).outq = [.live a.frame 2 none] ∧ (port d 5).outq = [.live b.frame 2 none] ∧
     (applyLive { d with live := [] } a.port 0x2020 0x0C 0 0 a.data).2.ports = d.ports) := by decide +kernel

def codeOf {α : Type} : Nat ⊕ α → Nat
  | .inl c => c
  | .inr _ => 0

/-- VersionRequestsAreAnswered: a rate that a running media does not change (the checks of a version that passes are too long for a
kernel test; 04 R133), a previous version that may return, a running and a stopped media. -/
theorem witness_VersionRequestsAreAnswered : hasRight host 4 2 = true ∧
    decide (codeOf (commitChecks (media 2 (staged 4 .opened)) (vSet { Version.zero with num := 1 } 0x2010 1 2) 0) = 7) = true ∧
    decide (revertChecks previous Version.zero 0 = 0) = true ∧ mediaRuns (media 2 host) = true ∧ mediaRuns host = false := by
  decide +kernel

/-- SubscriptionsIdentityAndUnfreeze: modes 0 and 1, period 0, the targets at the edges of their ranges, a frozen target. -/
theorem witness_SubscriptionsIdentityAndUnfreeze : (objAt 0x2020 9).map (accAt · 0) ≠ some .wo ∧ (port host 4).subs.length < 64 ∧
    hasRight host 4 4 = true ∧ frozen frozenHost 4 = true ∧ frozen host 4 = false ∧
    allowedFrozen 4 0x0B (req 0 0 [4] 0) = true ∧ heardB frozenHost 4 (req 0 0 [4] 0) = true := by decide +kernel

/-- EventRequests: an event frame on a stopped and a running media, untimed, timed within the horizon and beyond it; a waiting one. -/
theorem witness_EventRequests : let f : Frame := req 0 0 [0, 0, 0, 0, 0, 0, 0, 0, 0, 0, 0, 0, 0x40, 7, 0xB0, 0x20] 0
    let g : Frame := req 0 0 [1, 0, 0, 0, 0, 0, 0, 1, 0, 0, 0, 0, 0x40, 7, 0xB0, 0x20] 0
    let run := put 0x3000 1 0 1 (media 2 host)
    hasRight host 4 3 = true ∧ ((eventPkts f).getD []).any makesItem = true ∧ mediaRuns host = false ∧ mediaRuns run = true ∧
    badFrame 0x0A g = false ∧ evRoom run (waitOf run 4 0 true f ((eventPkts f).getD [])).items = true ∧
    sixNow run + horizon run < fieldAt g.payload 4 8 := by decide +kernel

/-- PortHousekeeping: codes that do not exist at the edges of their ranges, a limit of 0 and one that is reached, a self-unfreeze. -/
theorem witness_PortHousekeeping : heardB host 4 (req 0 0 [] 0) = true ∧ heardB (put 0x1004 4 0 1 host) 4 (req 0 0 [] 0) = true ∧
    rs (put 0x1004 4 0 1 host) 0x1004 4 = 1 ∧ rs (put 0x1004 4 0 0 host) 0x1004 4 = 0 ∧
    frozen (modPort frozenHost 4 (fun x => { x with selfTimer := true })) 4 = true := by decide +kernel

/-- A device on which UART port 4 has selected thread, counter and queue numbers. -/
def selected (t c q : Nat) (d : Dev) : Dev := modPort d 4 (fun x => { x with selThread := t, selCounter := c, selQueue := q })

/-- ObjectWritesAreWrites: a row on a port with a request before it, and a MEDIA_STOP asked of a running and of a stopped media. -/
theorem witness_ObjectWritesAreWrites : writeOf (.mediaStop 4 h0) = some (4, writeFrame h0 0x2000 1 1 0) ∧
    (match exec (.write 4 (writeFrame h0 0x2000 1 1 0)) ⟨[], host⟩ with
      | .next u => !(port u.dev 4).outq.isEmpty
      | _ => false) = true ∧ mediaRuns (media 2 host) = true ∧ mediaRuns host = false := by
  refine ⟨rfl, ?_, ?_⟩ <;> decide +kernel

/-- WritesOfMediaTimeAndLog: each write in each state of the media that a clause names, and DIGEST_MARK at and above the count. -/
theorem witness_WritesOfMediaTimeAndLog : (∀ st ∈ [0, 1, 2, 3], aloneB (media st host) 4 (writeFrame h0 0x2000 1 1 1) 0 = true ∧
      aloneB (media st host) 4 (writeFrame h0 0x2000 1 1 0) 0 = true ∧ aloneB (media st host) 4 (writeFrame h0 0x2010 6 1 1) 0 = true) ∧
    aloneB host 4 (writeFrame h0 0x2020 0x0C 8 (2 ^ 64 - 1)) 0 = true ∧
    (∀ n ∈ [0, 1], aloneB (media 2 host) 4 (writeFrame h0 0x0100 3 8 n) 0 = true) ∧ oGet (media 2 host) 0x0100 2 = 0 ∧
    aloneB host 4 (writeFrame h0 0x0300 4 1 1) 0 = true := by decide +kernel

/-- WritesOfThreadsAndQueues: thread 5, counters 128 and 1023, a part queue and a mailbox with and without room or grant. -/
theorem witness_WritesOfThreadsAndQueues : aloneB (selected 5 128 2051 host) 4 (writeFrame h0 0x5801 5 1 3) 5 = true ∧
    aloneB (selected 5 128 2051 host) 4 (writeFrame h0 0x5801 0x0E 1 1) 5 = true ∧
    aloneB (selected 5 128 2051 host) 4 (writeFrame h0 0x5800 0x10 2 0) 128 = true ∧
    aloneB (selected 5 1023 2051 host) 4 (writeFrame h0 0x5800 0x10 2 65535) 1023 = true ∧
    aloneB (selected 5 128 2051 host) 4 (writeFrame h0 0x5A01 0x0B 1 1) 2051 = true ∧
    aloneB (selected 5 128 0 host) 4 (writeFrame h0 0x5A01 0x0B 1 1) 0 = true ∧
    hostQueue host 2051 = true ∧ hostQueue host 0 = false ∧ granted (put 0x5A01 8 2051 16 host) 4 2051 = true ∧
    0 < qRoom host 2051 ∧ qRoom (put 0x5A01 2 2051 1 (qPush host 2051 5)) 2051 = 0 ∧
    badFrame 4 (req 0x5A01 9 (toLE 4 0 ++ toLE 16 7) 12) = false ∧ badFrame 2 (writeFrame h0 0x5A01 0x0A 1 1) = false := by
  decide +kernel

/-- WritesOfUnits: an enabled region, a region that may move and one that moves, a chain whose head the device is, the last timer and
UART, a spare, a failed and a serving unit. -/
def regionHost : Dev :=
  let d := oSet (put 0x6820 5 0 64 (put 0x6801 3 0 64 (put 0x6801 1 0 1 host))) 0x6830 2 65536
  { d with tuber := { d.tuber with region := [(0, 1)] } }
theorem regionHost_capacity : 7 * 2 ^ 31 / 8 ≤ capacity regionHost := by
  unfold capacity
  rw [if_neg (by decide +kernel)]
  unfold fittedBytes
  omega
theorem witness_verifyGo : (verifyGo regionHost 0).1 = 0 := by
  have hc := regionHost_capacity
  have hd : rgn regionHost.ver.active 0 2 + rgnBytes regionHost.ver.active 0 = 128 := by decide +kernel
  have he : entryBad regionHost regionHost.ver.active 0 = false := by
    simp only [entryBad, Bool.or_eq_false_iff, decide_eq_false_iff_not]
    exact ⟨⟨by decide +kernel, by decide +kernel⟩, by omega⟩
  unfold verifyGo
  rw [if_neg (by decide +kernel), if_neg]
  rintro (h | h)
  · revert h; decide +kernel
  · rw [he] at h; cases h
theorem witness_relocGo : (relocGo regionHost).1 = 0 := by
  have hc := regionHost_capacity
  have hd : oGet regionHost 0x6830 2 + rgnBytes regionHost.ver.active (oGet regionHost 0x6830 1) = 65664 := by decide +kernel
  unfold relocGo
  simp only []
  rw [if_neg (by decide +kernel), if_neg]
  rintro (h | h | h | h | h | h)
  · revert h; decide +kernel
  · revert h; decide +kernel
  · revert h; decide +kernel
  · omega
  · revert h; decide +kernel
  · revert h; decide +kernel
def chainHost : Dev := oSet (put 0x1100 4 0 3 (put 0x1100 2 0 1 (put 0x1100 1 0 1 host))) 0x1100 9 2
theorem witness_WritesOfUnits :
    aloneB (oSet regionHost 0x6830 4 1) 4 (writeFrame h0 0x6830 9 1 1) 0 = true ∧
    moving (oSet regionHost 0x6830 4 1) = true ∧ moving host = false ∧
    aloneB chainHost 4 (writeFrame h0 0x1142 5 1 1) 0 = true ∧ linkState chainHost 0 = 2 ∧
    aloneB host 4 (writeFrame h0 0x7420 5 1 1) 0 = true ∧ clearActive (oSet host 0x7420 5 1) = true ∧ clearActive host = false ∧
    aloneB host 4 (writeFrame h0 0x7C0F 4 4 7) 0 = true ∧ aloneB host 4 (writeFrame h0 0x7C0F 5 4 7) 0 = true ∧
    aloneB host 4 (writeFrame h0 0x7E03 0x13 1 1) 0 = true ∧ aloneB host 4 (writeFrame h0 0x8000 0x0B 1 1) 0 = true ∧
    aloneB host 4 (writeFrame h0 0x8100 6 1 1) 0 = true ∧ aloneB { host with units := [(0, 2)] } 4 (writeFrame h0 0x8100 5 1 1) 0 = true ∧
    aloneB { host with units := [(0, 4)] } 4 (writeFrame h0 0x8100 5 1 1) 0 = true := by decide +kernel

/-- ReferencesAreLostAndRegained, MediaTimeAdvances: every state of the media, with its reference and both fallbacks, within a block and at
its end, and at each boundary of a stop. -/
def played (k n : Nat) (stop : Option Nat) (req : Bool) : Dev := { media 2 host with media := ⟨n, k, req, stop, false⟩ }
theorem witness_ReferencesAreLostAndRegained : Awake ⟨[], host⟩ ∧ (∀ st ∈ [0, 1, 2, 3], mediaState (media st host) = st) ∧
    rs (put 0x2010 2 0 1 host) 0x2010 2 = 1 ∧ oGet (oSet host 0x2020 0x0B 1) 0x2020 0x0B = 1 ∧ rs host 0x2010 5 = 1 ∧
    rs (put 0x2010 5 0 0 host) 0x2010 5 = 0 := by refine ⟨rfl, ?_⟩; decide +kernel
theorem witness_MediaTimeAdvances : Awake ⟨[], played 4 80 none false⟩ ∧ mediaState (media 1 host) = 1 ∧
    (∀ x ∈ [played 4 80 none false, played 4 80 none true, played 4 80 (some 4) false, played 4 80 (some 3) false],
      mediaRuns x = true ∧ x.media.next = (x.media.block + 1) * blockLen x) ∧
    (played 4 79 none false).media.next < (4 + 1) * blockLen (played 4 79 none false) := by refine ⟨rfl, ?_⟩; decide +kernel

/-- SealsChecksAndVoiceEvents: a Pod's window with and without a cross-check, in time and late; a core's block that ended; a deferral before
and at its limit; an envelope segment before and at its end; a lane before and at its end. -/
def podWorks (check : Bool) (held : Option Int) (d : Dev) : Dev :=
  { d with alloc := { d.alloc with podTxns := [⟨4, 0, [], check, held, [], [], []⟩] } }
theorem witness_SealsChecksAndVoiceEvents : isPod 0 = true ∧ positionOf host 0 = some 0 ∧
    (∀ c ∈ [true, false], ((podWork (podWorks c none host) 0).filter (fun y => y.held.isNone)).length = 1) ∧
    ((podWork (podWorks true (some 5) host) 0).find? (fun x => x.check && x.held.isSome)).isSome = true ∧
    (∀ k ∈ [4, 5, 6], (played k (16 * k) none false).media.block = k) ∧
    (let x : Txn := ⟨0, 4, 3, 0, 0, [], [], [], [], [], [], [], some (Regs.init 0)⟩
     (coreOf (modCore host 0 (fun c => { c with ended := [x] })) 0).ended = [x] ∧ fullFor host x = []) ∧
    (let y : Deferral := ⟨0, 4, ⟨0, 60, 60, 0, 0, none, 0⟩, 0, 0, 0, none⟩
     (deferrals (modPart host 0 (fun ps => { ps with deferred := [y] }))).filter (fun x => x.1 = 0) = [(0, y)]) := by decide +kernel

/-- UnitsAndTemperatures: a Pod and a core that hold work, with a spare in their quadrant and without one, and a test that runs. -/
def spoilt : Dev :=
  let d := put 0x5003 0x19 0 64 (put 0x5003 0x1A 0 0 host)
  { d with gourd := { d.gourd with poison := [0x1A8000] }
           ver := { d.ver with active := { d.ver.active with heap := [(4096, 0xD40000)] } } }
theorem witness_UnitsAndTemperatures : podBusy (podWorks false none host) 0 = true ∧ unitSt host 0 = 0 ∧
    (spareIn host true (quadOf 0)).isSome = true ∧ spareIn { host with units := [] } true (quadOf 0) = none ∧
    coreBusy (user 0 0 0).dev 0 = true ∧ unitSt host 0x40 = 0 ∧ (spareIn host false (quadOf 0x40)).isSome = true ∧
    constBad host 0 = false ∧ constBad spoilt 0 = true ∧
    unitSt host 8 ≠ 0 ∧ ([(8, true)].find? (fun x : Nat × Bool => x.1 = 8)).isSome = true ∧
    rs (put 0x8000 0x0C 0 1 host) 0x8000 0x0C = 1 := by decide +kernel

/-- LinkPortsComeAndGo, LinkFramesAreTaken: a port in each state, enabled and not, on two lanes with and without a failed one, in a chain as
its head and as another node; a header and frames with a right and a wrong CRC. -/
def linkHost (st : Nat) : Dev := oSet (oSet (put 0x1100 5 0 2 (put 0x1100 1 0 1 host)) 0x1100 9 st) 0x1100 0x0A 3
def sealed (n : Nat) : List Byte := let b := List.replicate n 0#8; b ++ toLE 4 (crc32 b)
theorem witness_LinkPortsComeAndGo : (∀ st ∈ [0, 1, 2, 3, 4, 6], linkState (linkHost st) 0 = st) ∧ lf (linkHost 0) 0 1 = 1 ∧
    lf (put 0x1100 1 0 0 host) 0 1 ≠ 1 ∧ lf (linkHost 0) 0 5 = 2 ∧ (linkOf (modLink host 0 (fun x => { x with failed := some 1 })) 0).failed = some 1 ∧
    laneOf (linkHost 3) 0 0 = 0 ∧ receives chainHost 0 = true ∧ chainMode chainHost 0 = true ∧ ownNode chainHost 0 = 0 ∧
    ownNode (put 0x1100 3 0 2 chainHost) 0 = 2 ∧ linkUp (linkHost 6) 0 = false := by decide +kernel
theorem witness_LinkFramesAreTaken : receives (linkHost 2) 0 = true ∧ receives (linkHost 1) 0 = false ∧
    chainMode (linkHost 2) 0 = false ∧ crcOk (sealed 60) 64 = true ∧ crcOk (List.replicate 64 0#8) 64 = false ∧
    crcOk (sealed 72) 76 = true ∧ ringOf (put 0x1100 0x18 0 0 (linkHost 2)) 0 0 = some 0 ∧ ringOf (linkHost 2) 0 0 = none ∧
    rs (put 0x2010 7 0 1 host) 0x2010 7 = 1 ∧ inStream (linkHost 2) 0 0 0 = none := by decide +kernel

/-- TuberReadsAndVerifies: a fetch, a pass that runs, one that waits for the retraining. -/
def fetching : Dev := { regionHost with tuber := { regionHost.tuber with
  streams := [⟨1, 0, ⟨0, 0, 48000, 0, 64, 0, 0, 0⟩, [], [], false⟩], verifying := some 0 } }
theorem witness_TuberReadsAndVerifies : (fetching.tuber.streams.find? (fun x => x.serial = 1 && x.osc = 0)).isSome = true ∧
    (host.tuber.streams.find? (fun x => x.serial = 1 && x.osc = 0)) = none ∧ inRegion regionHost (burstBase 64) 64 0 = true ∧
    inRegion regionHost (burstBase 128) 64 0 = false ∧ fetching.tuber.verifying = some 0 ∧ fetching.tuber.retraining = false := by
  decide +kernel

/-- TuberTransfers: a channel with an owner and a descriptor, a descriptor's job in each status, a move in each state. -/
def channel : Dev := qPush (put 0x6811 7 0 2050 (put 0x6811 6 0 2049 (put 0x6811 1 0 1 host))) 2049 0
theorem witness_TuberTransfers : (∀ st ∈ [0, 1, 2, 3], (jobOf (setJob host 0 (some ⟨0, 1, 0, 0, 8, st, 0, 0xFFFFFFFF, [], false⟩)) 0).map (·.status) = some st) ∧
    jobOf host 0 = none ∧ ownerFrozen host 0 = false ∧ (∀ st ∈ [1, 2, 3], oGet (oSet host 0x6830 4 st) 0x6830 4 = st) := by decide +kernel

/-- SerialAudioPorts: a master and a slave, a FIFO with two, three and no frames, sending and not. -/
def sap (role : Nat) (fifo : Nat) (sending : Bool) : Dev := modSap (put 0x7000 8 0 3 (put 0x7000 9 0 3 (put 0x7000 2 0 role (put 0x7000 1 0 1
  (media 2 host))))) 0 (fun x => { x with fifo := List.replicate fifo (0, []), sending := sending })
theorem witness_SerialAudioPorts : sapSends (sap 1 3 false) 0 = true ∧ mediaRuns (sap 1 3 false) = true ∧ sapShown (sap 1 3 false) 0 = 2 ∧
    sapF (sap 1 3 false) 0 8 = 3 ∧ (∀ n ∈ [0, 2, 3], (sapOf (sap 1 n true) 0).fifo.length = n) ∧ sapMaster (sap 0 0 false) 0 = false ∧
    sapState (oSet (sap 0 0 false) 0x7000 0x11 2) 0 = 2 ∧ rs (put 0x7100 1 0 1 host) 0x7100 1 = 1 ∧ rs (put 0x7100 1 0 0 host) 0x7100 1 = 0 ∧
    (∀ st ∈ [0, 1, 2, 3], asrcState (oSet host 0x7100 2 st) 0 = st) := by decide +kernel

/-- ConvertersAndSensors: a pending code on an enabled channel, a hold, a load fault, a conversion on an input of each kind, an item that waits. -/
def analog : Dev := let d := put 0x7410 1 0 1 (put 0x7420 2 0 1 (put 0x7420 1 0 1 (media 2 host)))
  { d with analog := { d.analog with arrived := true, cv := [(0, ⟨7, ⟨0x20000, 0, 0⟩, none, none⟩)] } }
theorem witness_ConvertersAndSensors : rs analog 0x7420 2 = 1 ∧ mediaRuns analog = true ∧ clearActive analog = false ∧
    anaOn analog 8 = true ∧ anaOn analog 9 = false ∧ (cvOf analog 0).pending = 7 ∧ anaOn (put 0x7400 1 0 1 host) 0 = true ∧
    anaOn host 0 = false ∧ oGet host 0x7400 5 = 0 ∧ (∀ c ∈ [true, false], clearActive { host with analog := { host.analog with clrPin := c } } = c) ∧
    pathState host = 0 ∧ pathState (put 0x7800 1 0 1 host) = 1 ∧ rs (put 0x781F 1 0 1 host) 0x781F 1 = 1 ∧
    muxed host 31 = false := by decide +kernel

/-- TimersTicksAndScrubs: a timer on each clock, before a match and at one; a queue with a waiter, full and with room; the last word of Gourd. -/
def timer (src cmp : Nat) : Dev := oSet (put 0x7C00 7 0 1 (put 0x7C00 8 0 8 (put 0x7C00 2 0 src (put 0x7C00 1 0 1 host)))) 0x7C00 5 cmp
theorem witness_TimersTicksAndScrubs : (∀ src ∈ [1, 2, 4], rs (timer src 1) 0x7C00 1 = 1 ∧ rs (timer src 1) 0x7C00 2 = src) ∧
    mediaRuns (media 2 host) = true ∧ oGet (timer 1 1) 0x7C00 4 = 0 ∧ rs (timer 1 1) 0x7C00 7 = 1 ∧ rs (timer 1 1) 0x7C00 8 = 8 ∧
    (timerOf (timer 1 1) 0).pulse = false ∧ oGet (timer 1 1) 0x7C00 5 = 1 ∧ oGet (timer 1 2) 0x7C00 5 = 2 ∧ rs host 0x7420 2 ≠ 2 ∧
    (queueOf (modQueue host 2051 (fun x => { x with waiters := [3] })) 2051).waiters = [3] ∧ rs host 0x7C00 0x10 = 0xFFFF := by
  decide +kernel

/-- UartCharacters: a unit in each mode, a break, a framing error, a full and an empty ring, an item at hand and one that waits; a sleeping device. -/
def uart (mode : Nat) : Dev := put 0x7E00 7 0 0 (put 0x7E00 1 0 mode host)
def asleepUart : Dev := { put 0x7E00 0x0D 0 1 (uart 2) with power := { host.power with phase := .asleep } }
theorem witness_UartCharacters : (∀ m ∈ [0, 1, 2, 3], uMode (uart m) 0 = m) ∧ uFlow (uart 2) 0 = false ∧ (uartOf host 0).rx = [] ∧
    (uartOf host 0).closed = none ∧ (uartOf host 0).item.chars.length + 1 < itemCap (uart 2) 0 ∧ (uartOf host 0).lost = false ∧
    charFlags (uart 2) 0 0 true false = 4 ∧ charFlags (uart 2) 0 65 true true = 0 ∧ charFlags (uart 2) 0 65 true false = 1 ∧
    0 < qRoom (uart 2) (uf (uart 2) 0 0x0A) ∧ uf (put 0x7E00 0x0C 0 1 (uart 2)) 0 0x0C = 1 ∧ asleepUart.power.phase = .asleep ∧
    uf asleepUart 0 0x0D = 1 ∧ uMode asleepUart 0 = 2 ∧ wakeChar asleepUart 0 65 = false ∧
    wakeChar (put 0x7E00 0x0E 0 2 (put 0x7E00 0x11 0 255 (put 0x7E00 0x10 0 65 asleepUart))) 0 65 = true := by decide +kernel

/-- PowerResetAndTap: a device in each phase, its wake sources on and off, and the three lone writes. -/
theorem witness_PowerResetAndTap : Awake ⟨[], host⟩ ∧ asleepUart.power.phase = .asleep ∧ Dev.reset.power.phase = .held 0 ∧
    (∀ k ∈ [0, 1, 2, 3], ({ host with power := { host.power with phase := .held k } } : Dev).power.phase = .held k) ∧
    bitOf (rs (put 0x8230 3 0 1 host) 0x8230 3) 0 = true ∧ bitOf (rs (put 0x8230 3 0 0 host) 0x8230 3) 0 = false ∧
    bitOf (rs (put 0x8230 3 0 16 host) 0x8230 3) 4 = true ∧ aloneB host 4 (writeFrame h0 0x8230 1 1 1) 0 = true ∧
    aloneB host 4 (writeFrame h0 0x8230 1 1 2) 0 = true ∧ aloneB host 4 (writeFrame h0 0x8230 2 1 1) 0 = true := by
  refine ⟨rfl, rfl, rfl, ?_⟩; decide +kernel

/-- BlockNormalisation: the last vector of local memory, and a group that names no memory. -/
theorem witness_BlockNormalisation : Dispatched (user 0x1FFF0 0 0) 0 3 ∧ (aR (regsOf (user 0x1FFF0 0 0) 3) 0 0).toNat = 0x1FFF0 ∧
    aR (regsOf (user 0x1FFF0 0 0) 3) 2 0 = 0 ∧ (aR (regsOf (user 0x20000 0 0) 3) 0 0).toNat = 0x20000 := by
  refine ⟨dispatched_of (by decide +kernel), ?_⟩; decide +kernel

/-- UndefinedWordsAreRefused, InstructionWordsDecode: a form with a field outside its values, and a word of one inside them. -/
theorem witness_UndefinedWordsAreRefused : Instr.core (.ldd 0 ⟨3, 0, 0, false, 0⟩ .ok) = some 0 ∧
    Instr.fieldsOk (.ldd 0 ⟨3, 0, 0, false, 0⟩ .ok) = false ∧ Instr.core (.undefinedInstruction 0) = some 0 := by decide
theorem witness_InstructionWordsDecode : Instr.core (.addi 1 4 4 2) = some 1 ∧ Instr.fieldsOk (.addi 1 4 4 2) = true ∧
    encodeMarrow (.addi 1 4 4 2) = some 0x08840002#32 := by decide

/-- CommandsAnswerAndResetHolds: a device that is not awake, and a command outside the list. -/
theorem witness_CommandsAnswerAndResetHolds : ¬ Awake State.reset := by unfold Awake; decide

/-! ### Witnesses of further clauses -/

/-- A voice of part 0 with serial number 1, its first envelope at count n of 2, fading from sample 0 over 96 samples. -/
def voice (n : Nat) : Voice :=
  ⟨0, 0, 1, 0, 0, 0, 60, 60, 0, 0, 0, none, 0, 0, 0, 0, none, 0, false, false, 0, [], 0, 0,
   [⟨0, 0, n, 2, 0, 0, 0, 0, false, .run, false, false⟩], [], [], [], 0, 0, [], [], Filt.zero, Filt.zero, [], some (0, 96), none, none,
   none, []⟩

/-- SealsChecksAndVoiceEvents: a segment at its end and before it, a lane at its end and before it, a late and an early seal. -/
theorem witness_SealsChecksAndVoiceEvents_voices : let d := { host with alloc := { host.alloc with slots := [(0, voice 2)], lanes := [(0, voice 1)] } }
    (mfind d.alloc.slots 0).map (fun v => (v.envs[0]?).map (fun x => decide (x.len ≤ x.n))) = some (some true) ∧
    ((voice 1).envs[0]?).map (fun x => decide (x.n < x.len)) = some true ∧ (mfind d.alloc.lanes 0).bind (·.lane) = some (0, 96) ∧
    0 + 96 = ((played 4 80 none false).media.block + 2) * blockLen (played 4 80 none false) ∧
    (played 3 64 none false).media.block < 4 := by decide +kernel

/-- PostEntersOneItem, KernelCallsInBlocks: a thread of a frozen core, and a block with room for the staged item of a part that is on. -/
theorem witness_PostEntersOneItem_frozen_and_staged : let d := oSet host 0x1020 1 5
    let b := put 0x3000 1 0 1 (oSet (block 255 0 0 0 host).dev 0x2000 2 2)
    Dispatched (kernel 0 0 d) 0 3 ∧ coreFrozen d 0 = true ∧ (coreOf d 0).txn = none ∧ coreFrozen b 0 = false ∧ partOn b 0 = true ∧
    umpClass 0x20B00740 = some 0 ∧ rangeTakes b 0 0x20B00740 0 = true ∧ (coreOf b 0).txn.map (·.used) = some 255 := by
  refine ⟨dispatched_of (by decide +kernel), ?_⟩; decide +kernel

/-- QueueCallsOutsideBlocks, WritesOfThreadsAndQueues: a queue whose head item a transaction that waits for its seal has read. -/
def readAhead : Dev := modCore (qPush (put 0x5A01 8 2051 16 host) 2051 5) 1 (fun c => { c with
  ended := [⟨1, 4, 7, 0, 0, [], [], [], [], [], [(2051, 1)], [], some (Regs.init 0)⟩] })
theorem witness_QueueCallsOutsideBlocks_held : Dispatched (kernel 2051 0 readAhead) 0 3 ∧ heldItems readAhead 2051 = 1 ∧
    heldItems host 2051 = 0 ∧ (queueOf readAhead 2051).items = [5] ∧ queueGranted (kernel 2051 0 readAhead).dev 3 2051 = true ∧
    hostQueue readAhead 2051 = true ∧ granted readAhead 4 2051 = true ∧
    aloneB readAhead 4 (writeFrame h0 0x0300 4 1 1) 0 = true := by
  refine ⟨dispatched_of (by decide +kernel), ?_⟩; decide +kernel

/-- DirectAtomics: a poisoned word. StoresToLocalMemory: a store above a constant area of 64 bytes. -/
theorem witness_DirectAtomics_poisoned : Dispatched poisoned 0 3 ∧ isPoisoned poisoned.dev 0xD40000 = true ∧
    (coreOf poisoned.dev 0).txn = none ∧ winAllows poisoned.dev 0 0xD40000 8 2 = true ∧
    constKept (put 0x5003 0x19 0 64 (user 64 0 0).dev) 0 = 64 := by
  refine ⟨dispatched_of (by decide +kernel), ?_⟩; decide +kernel

/-- ReadsAnswerValues: ITEM of a mailbox with an item and of an empty one. ViolationsFreezeThePort: an empty bucket of a port with a
quota. -/
theorem witness_ReadsAnswerValues_item : (objAt 0x5A01 9).map (·.row.ty) = some (.dom 16) ∧ hostQueue host 2051 = true ∧
    (queueOf host 2051).items = [] ∧ (queueOf readAhead 2051).items = [5] ∧ badFrame 3 (req 0x5A01 9 [0, 0, 0, 0, 16] 0) = false ∧
    heardB (selected 0 0 2051 readAhead) 4 (req 0x5A01 9 [0, 0, 0, 0, 16] 0) = true ∧ mayRead host 4 0x5A01 = true ∧
    heardB (put 0x1004 3 0 1 host) 4 (req 0x3000 2 [5, 0] 0) = true ∧
    (takeQuota (put 0x1004 3 0 1 host) 4).isNone = true := by decide +kernel

/-- EventRequests: an event that waits on a UART port without a message held back. -/
theorem witness_EventRequests_waiting : let w := waitOf host 4 0 true (req 0 0 [] 0) []
    (port (modPort host 4 (fun x => { x with outq := [.event w] })) 4).outq = [.event w] ∧ evRoom host w.items = true ∧
    (uartOf host 0).midiWait = none := by decide +kernel

/-- A chain node that is not the head, up, with header words before it; its guard test passes at 18,400 ps and fails one beyond. -/
def follower : Dev := put 0x1100 3 0 2 chainHost
theorem witness_LinkFramesAreTaken_chain : (hears follower 0 = true ∧ receives follower 0 = true ∧ chainMode follower 0 = true ∧
    isHead follower 0 = false ∧ hears (oSet follower 0x1100 9 1) 0 = true ∧ receives (oSet follower 0x1100 9 1) 0 = false ∧
    hears host 0 = false ∧ (guardTest follower 0 1 18400).1 = true ∧ (guardTest follower 0 1 18401).1 = false ∧
    (guardTest follower 0 1 (-18401)).1 = false ∧ ownNode follower 0 = 2) ∧
    (∀ f : TxFrame, (linkOf (modLink follower 0 (fun x => { x with sent := [⟨0, 0, f⟩] })) 0).sent = [⟨0, 0, f⟩]) := by
  refine ⟨by decide +kernel, fun f => ?_⟩
  simp [linkOf, modLink, mmod, follower, chainHost, put, oSet, host, modPort, Dev.reset, mput, mget, mins, mdel, Link.zero]

/-- PortHousekeeping: a frame that fails its CRC on a chain, inside the guard and beyond it. -/
theorem witness_PortHousekeeping_chain : let d := modPort follower 0 (fun x => { x with session := true })
    (port d 0).session = true ∧ receives d 0 = true ∧ (guardTest d 0 1 12000).1 = true ∧ (guardTest d 0 1 18401).1 = false := by
  decide +kernel

/-- TuberReadsAndVerifies: a stream with its voice, which wants frames; channels that retrain. -/
def streaming : Dev := { fetching with alloc := { fetching.alloc with slots := [(0, voice 0)] } }
theorem witness_TuberReadsAndVerifies_stream : (streaming.tuber.streams.find? (fun x => x.serial = 1 && x.osc = 0)).isSome = true ∧
    (voiceOf streaming 1).isSome = true ∧ voiceOf fetching 1 = none ∧ 0 ∈ listedRegions regionHost.ver.active ∧
    0 ∈ enabledRegions regionHost.ver.active ∧ (startRetrain host).tuber.retraining = true := by decide +kernel

/-- TuberTransfers: an idle channel of a port with an empty descriptor in its ring, and one that retrains. -/
def dmaHost : Dev := qPush (put 0x6820 0x16 0 2049 (put 0x6820 0x17 0 2050 (put 0x6820 0x10 0 0xC4 host))) 2049 0
theorem witness_TuberTransfers_descriptor : dmaF dmaHost 0 0 = 0xC4 ∧ ownerFrozen dmaHost 0 = false ∧ jobOf dmaHost 0 = none ∧
    qCount dmaHost (dmaF dmaHost 0 6) = 1 ∧ dmaHost.tuber.retraining = false ∧ 0 < qRoom dmaHost (dmaF dmaHost 0 7) ∧
    (∀ op ∈ [0, 1, 2, 3], dmaStatus dmaHost 0 ⟨0, op, 0, 0, 0, 0, 0, 0xFFFFFFFF, [], false⟩ op = 1) ∧
    dmaStatus dmaHost 0 ⟨0, 1, 0, 0, 4, 0, 0, 0xFFFFFFFF, [], false⟩ 1 = 3 := by decide +kernel

/-- SerialAudioPorts: a synchronous port whose frame is due and one whose frame has started; an asynchronous slave; each bit of a slot
word, the FSYNC of the three formats, an input word most significant bit first. -/
def sapDue (due : Bool) : Dev := modSap (sap 1 3 false) 0 (fun x => { x with due := due })
theorem witness_SerialAudioPorts_framing : sapSync (sapDue true) 0 = true ∧ (sapOf (sapDue true) 0).due = true ∧
    (sapOf (sapDue false) 0).due = false ∧ sapSync (sap 0 3 false) 0 = false ∧ 0 < sapF (sap 1 3 false) 0 5 ∧
    sapF (sap 1 3 false) 0 5 ≤ 32 ∧ (∀ f ∈ [0, 1, 2], sapF (put 0x7000 3 0 f host) 0 3 = f) ∧
    (let d := put 0x7000 5 0 16 (put 0x7000 3 0 1 (sap 1 3 false))
     sapWordIn d 0 (1 :: List.replicate 31 0) 0 0 = 32768 ∧ sapWordIn d 0 (List.replicate 15 0 ++ [2] ++ List.replicate 16 0) 1 0 = 1) := by
  decide +kernel

/-- ConvertersAndSensors: the path stopped by the heat, a muxed input whose sensor its detector watches and one that it does not. -/
def sensing (smx : Nat) : Dev := { put 0x7800 0x0C 0 1 (put 0x7810 1 0 1 (put 0x7800 1 0 1 host)) with sense := { host.sense with smx := smx } }
theorem witness_ConvertersAndSensors_muxed : muxed (sensing 3) 0 = true ∧ pathState (sensing 3) = 1 ∧ sensorNow (sensing 3) 0 = 3 ∧
    rs (sensing 3) 0x7840 2 = 0 ∧ sensorNow (sensing 0) 0 = 0 ∧ rs (sensing 3) 0x7810 1 = 1 ∧
    pathState { sensing 0 with sense := { (sensing 0).sense with derated := true } } = 2 := by decide +kernel

/-- TimersTicksAndScrubs: a tick within the cycle, at its end, and one that has passed. -/
theorem witness_TimersTicksAndScrubs_ticks : tickNow host = 0 ∧ tickNow host < 124 ∧ 124 < 125 * (host.cycles + 1) ∧
    125 * (host.cycles + 1) ≤ 125 ∧ 0 ≤ tickNow host := by decide +kernel

/-- UartCharacters: a unit with a notification to send. -/
theorem witness_UartCharacters_notes : let d := modPort (uart 3) 4 (fun x => { x with notes := [⟨0, 0x2020, 9, 0, 0, [0]⟩] })
    (port d 4).notes = [⟨0, 0x2020, 9, 0, 0, [0]⟩] ∧ (uartOf d 0).frames = [] ∧ (uartOf d 0).tx.length < 64 ∧ uMode d 0 = 3 := by
  decide +kernel

/-- UnitsAndTemperatures: capacity mode, and a unit that is taking over. -/
theorem witness_UnitsAndTemperatures_capacity : rs (put 0x4C10 2 0 1 host) 0x4C10 2 = 1 ∧ rs host 0x4C10 2 ≠ 1 ∧
    ({ host with spares := { host.spares with taking := [0] } } : Dev).spares.taking.contains 0 = true := by decide +kernel

/-- 23 R678, R680: a cold cause during a supply-monitor reset leaves its kind, and the rail in MON_FLAGS. -/
theorem test_cold_in_supply_reset : let d := resetDev (oSet (resetDev host 3) 0x8230 0x08 4) 1
    oGet d 0x0010 4 = 3 ∧ oGet d 0x8230 8 = 4 := by decide +kernel

/-- 23 R687, 19 R588: the CV outputs of a sleeping device stand at CLEAR_CODE. -/
theorem test_sleep_clears_cv : (cvOf (enterSleep (modCv host 3 (fun c => { c with out := ⟨5, 0, 0⟩ }))) 3).out.code = 0x20000 := by decide +kernel

/-- LinkPortsComeAndGo: a port on one lane whose partner has shown both for seven cycles, and frames to be sent again with and
without credit. -/
def oneLane (f : TxFrame) (credit : Nat) : Dev := modLink (linkHost 3) 0 (fun x => { x with
  failed := some 1, both := some 7, again := [f], words := [[credit]] })
theorem witness_LinkPortsComeAndGo_lanes : (linkOf (oneLane ⟨0, .service, []⟩ 1) 0).both = some 7 ∧
    lf (oneLane ⟨0, .service, []⟩ 1) 0 5 = 2 ∧ oGet (oneLane ⟨0, .service, []⟩ 1) 0x1100 0x0A = 3 ∧
    isoOwed (oneLane ⟨0, .service, []⟩ 1) 0 = false ∧ creditLeft (oneLane ⟨0, .service, []⟩ 1) 0 0 0 ≠ 0 ∧
    repeatsFor (oneLane ⟨0, .service, []⟩ 0) 0 0 = [⟨0, .service, []⟩] ∧ creditLeft (oneLane ⟨0, .service, []⟩ 0) 0 0 0 = 0 ∧
    (linkOf (linkHost 3) 0).both = none ∧ laneOf (linkHost 3) 0 0 ≠ 1 := by decide +kernel

/-- LinkFramesAreTaken: a header whose byte 17 shows both lanes, to a port on one lane. -/
def bothShown : List Byte := header64 (List.replicate 17 0#8 ++ [3#8] ++ List.replicate 42 0#8)
theorem witness_LinkFramesAreTaken_both : crcOk bothShown 64 = true ∧ fieldAt bothShown 17 1 % 4 = 3 ∧
    (let d := modLink (linkHost 3) 0 (fun x => { x with failed := some 1 })
     receives d 0 = true ∧ linkState d 0 = 3 ∧ lf d 0 5 = 2 ∧ (linkOf d 0).failed.isSome = true ∧ (linkOf d 0).both = none) ∧
    hears (linkHost 1) 0 = true ∧ receives (linkHost 1) 0 = false := by decide +kernel

/-- 17 R508, R510: step 4 gives the lanes and PATH_DELAY before the first header leaves. -/
theorem test_step_four : let d := stepFour (linkHost 1) 0 (some ⟨3, true, ⟨120, 2⟩⟩)
    oGet d 0x1100 0x0A = 3 ∧ oGet d 0x1100 0x0B = 16000 ∧ (linkOf d 0).trained = true := by decide +kernel

/-- 17 R544: a COMMIT that disables its own Link port, or restarts its own unit, has its answer to send first. -/
theorem test_answer_first : let v := vSet Version.zero 0x1100 1 0
    portRestarts Version.zero v 0 = true ∧ portRestarts Version.zero v 1 = false ∧
    answered (modPort (modLink host 0 (fun x => { x with wait := [⟨0, .service, []⟩] })) 0 (fun x => { x with session := true })) 0 = false ∧
    answered host 4 = true := by decide +kernel

/-- PowerResetAndTap, VersionRequestsAreAnswered: an answer that still stands on a UART, a reset asked for, a switch that waits. -/
def answering : Dev := modUart host 0 (fun u => { u with frames := [[0x7E]] })
def asking (d : Dev) : Dev := askPower d 4 (fun x => { x with resetReq := some 1 })
theorem witness_PowerResetAndTap_asked : answered answering 4 = false ∧ (asking answering).power.askers.all (answered (asking answering)) = false ∧
    (asking host).power.askers.all (answered (asking host)) = true ∧ (asking host).power.resetReq = some 1 ∧
    switchHeld { answering with ver := { answering.ver with untold := some 4 } } = true ∧ switchHeld host = false := by decide +kernel

/-- SerialAudioPorts: a port in each role with an input frame due and not, with a converter in each state, three framing errors in a row. -/
def inSap (due asrc : Bool) (st bad : Nat) : Dev := modSap (oSet (put 0x7100 1 0 (b2n asrc) (sap 1 0 false)) 0x7100 2 st) 0 (fun x =>
  { x with inDue := due, bad := bad, frames := [(0, [5, 6])] })
theorem witness_SerialAudioPorts_inputs : (∀ a ∈ [true, false], ∀ b ∈ [true, false], ∀ st ∈ [0, 1, 2, 3],
      sapTakes (inSap a b st 0) 0 = true ∧ (sapOf (inSap a b st 0) 0).inDue = a ∧ asrcOn (inSap a b st 0) 0 = b ∧ asrcState (inSap a b st 0) 0 = st) ∧
    (sapOf (inSap true false 0 3) 0).bad = 3 ∧ (sapOf (inSap true false 0 0) 0).frames ≠ [] ∧
    sapClocks (sap 1 0 false) 0 = true ∧ sapClocks host 0 = false := by decide +kernel

/-- 18 R558: one input frame for each engine sample: a second one in the sample is not written. -/
theorem test_one_input_frame : let d := put 0x7000 0x0A 0 2048 (inSap true false 0 0)
    (queueOf (sapInput d 0 []) 2048).items.length + (sapOf (sapInput d 0 []) 0).part.length = 2 ∧
    (sapOf (sapInput (sapInput d 0 []) 0 []) 0).part.length = 2 := by decide +kernel

/-- ConvertersAndSensors: a load that is a major-code transition and one that is not, a key that is down at the start, one that has
returned, an item that waits with and without the media. -/
def keyed (k : KeyAt) : Dev := modSensor (put 0x7900 8 0 300 (put 0x7900 9 0 600 (put 0x7900 0x0A 0 10 (media 2 host)))) 0
  (fun x => { x with key := k })
theorem witness_ConvertersAndSensors_keys : (sensorOf (keyed .fresh) 0).key = .fresh ∧ sf (keyed .fresh) 0 9 ≤ 700 ∧ sf (keyed .fresh) 0 7 = 0 ∧
    (sensorOf (keyed .held) 0).key = .held ∧ sf (keyed .held) 0 8 ≤ 295 + sf (keyed .held) 0 0x0A ∧ 200 + sf (keyed .held) 0 0x0A < sf (keyed .held) 0 8 ∧
    mediaRuns (keyed .free) = true ∧ mediaRuns host = false ∧ rs host 0x7800 4 = 0xFFFF ∧
    0x20000 / 8192 % 32 ≠ (cvOf analog 0).pending / 8192 % 32 := by decide +kernel

/-- 19 R586, R589: a held load keeps the old code, range and reference at the output. -/
theorem test_hold_keeps_voltage : let d := strobeCh (put 0x7410 2 0 1 analog) 0
    (cvOf d 0).out = ⟨0x20000, 0, 0⟩ ∧ (cvOf d 0).hold = some ⟨7, 1, 0⟩ ∧ (cvOf (modCv d 0 endHold) 0).out = ⟨7, 1, 0⟩ := by decide +kernel

/-- UartCharacters: a sleeping device whose buffer is full, the bits of a character with even parity. -/
theorem witness_UartCharacters_sleep : let d := modUart asleepUart 0 (fun u => { u with sleep := List.replicate 16 (0x41, 0) })
    (uartOf d 0).sleep.length = 16 ∧ receiving d 0 = true ∧ receiving { d with power := { d.power with phase := .stopped } } 0 = false := by decide +kernel
theorem test_char_bits : charBits (put 0x7E00 5 0 1 (uart 2)) 0 0x07 =
    [false, true, true, true, false, false, false, false, false, true, true] := by decide +kernel

/-- PowerResetAndTap: a device that sleeps, and one in each reset. -/
theorem witness_PowerResetAndTap_avs : avsAnswers asleepUart = true ∧ avsAnswers host = true ∧ avsAnswers Dev.reset = false ∧
    avsAnswers { host with power := { host.power with phase := .held 2 } } = true ∧ host.tap.ir = 0xFF ∧ ballOut host 36 = true := by decide +kernel

/-- 21 R627: a staged write of CAP_DIV marks its timer, whatever it writes. -/
theorem test_cap_div_marked : (markCap Version.zero 0x7C05 0x0C).caps = [5] ∧ (markCap Version.zero 0x7C05 0x0B).caps = [] := by decide +kernel

/-- StepsKeepMemoriesCanonical: the reset state, and one with bytes in each memory. -/
theorem witness_StepsKeepMemoriesCanonical : (mwf 0#8 State.reset.dev.gourd.mem = true ∧ mwf 0#8 State.reset.dev.tuber.mem = true ∧
      ∀ n, mwf 0#8 (coreOf State.reset.dev n).mem = true) ∧
    ∃ t, exec (.stw 0 ⟨2, 0, 0, false, 0⟩ .ok) (user 0x100 0x1234 0) = .next t ∧ (coreOf t.dev 0).mem = [(0x100, 0x34), (0x101, 0x12)] :=
  ⟨⟨rfl, rfl, fun _ => rfl⟩, _, rfl, by decide +kernel⟩

/-- DirectLoadsOfGourd, DirectStoresToGourd: the halves of a vector, one poisoned, one of another quadrant; a conflict drops one half. -/
theorem witness_DirectLoadsOfGourd_vector : winAllows poisoned.dev 0 0xD40008 8 0 = true ∧ inUserArea poisoned.dev 0xD40008 8 = true ∧
    isPoisoned poisoned.dev 0xD40008 = false ∧ isPoisoned poisoned.dev 0xD40000 = true ∧
    storeOk poisoned.dev 0 0xD40008 8 = true ∧ gQuad 0xD40008 ≠ 0 / 5 := by decide +kernel

/-- RefusedAccesses: an aligned word beside the window, a vector across its end, a vector out of line in local memory. -/
theorem witness_RefusedAccesses_windows : winAllows (user 0x40D41000 0 0).dev 0 0xD41000 8 0 = false ∧
    winAllows gourdUser.dev 0 0xD40FF8 8 0 = true ∧ inUserArea gourdUser.dev 0xD40FF8 8 = true ∧ winAllows gourdUser.dev 0 0xD41000 8 1 = false ∧
    isPoisoned gourdUser.dev 0xD41000 = false ∧ 0x1008 % 16 ≠ 0 ∧ (4 : BitVec 5).getLsbD 0 = false := by decide +kernel

/-- BlockNormalisation: three vectors of a circular buffer of 48 bytes from its second, in local memory and in Gourd. -/
def circular (base : Nat) : State := runs 0 3 { regs 0 0 0 with
  ad := [(0, BitVec.ofNat 32 (base + 16))], bs := [(0, BitVec.ofNat 32 base)], ln := [(0, 48)] } (window 0xD40000 host)
def bnormPlace (s : State) (i : Nat) : Nat := (aR ((rangeFrom 0 i).foldl (fun q _ => postMod q 0 16) (regsOf s 3)) 0 0).toNat
theorem witness_BlockNormalisation_circular : Dispatched (circular 0x100) 0 3 ∧ Dispatched (circular 0x40D40000) 0 3 ∧
    (∀ b ∈ [0x100, 0x40D40000], (rangeFrom 0 4).map (bnormPlace (circular b)) = [b + 16, b + 32, b, b + 16]) ∧
    constKept (circular 0x100).dev 0 = 0 ∧ (∀ i ∈ rangeFrom 0 6, storeOk gourdUser.dev 0 (0xD40000 + 8 * i) 8 = true ∧
      winAllows gourdUser.dev 0 (0xD40000 + 8 * i) 8 0 = true) := by
  refine ⟨dispatched_of (by decide +kernel), dispatched_of (by decide +kernel), ?_⟩; decide +kernel

/-- DispatchesThatEnd: a thread whose DONE_CNT counts 0, 1 (for which thread 9 waits) and 2, alone and as its WAKE_CNT. -/
def doneAt (v wake : Nat) : State := kernel 0 0 (modThr (setCntRaw (put 0x5801 0x0D 3 206 (put 0x5801 0x0C 3 wake host)) 206 v) 9
  (fun x => { x with st := .waiting, waitOn := some 206 }))
theorem witness_DispatchesThatEnd_done : Dispatched (doneAt 1 0xFFFF) 0 3 ∧ (∀ v ∈ [0, 1, 2], ∀ w ∈ [0xFFFF, 206],
      tf (doneAt v w).dev 0x0D 3 = 206 ∧ tf (doneAt v w).dev 0x0C 3 = w ∧ cnt (doneAt v w).dev 206 = v) ∧
    (thr (doneAt 1 0xFFFF).dev 9).waitOn = some 206 ∧ rs (doneAt 1 206).dev 0x5800 0x12 206 = 0 := by
  refine ⟨dispatched_of (by decide +kernel), ?_⟩; decide +kernel
theorem test_done_releases : let d := kernelRest (signalDone (doneAt 1 206).dev (doneAt 1 206).dev.ver.active 3) 3 false
    cnt d 206 = 0 ∧ (thr d 9).st = .ready ∧ (thr d 3).st = .ready := by decide +kernel

/-- TuberTransfers: accepted descriptors of every direction, with an error in the source; jobs between a ring and sample memory. -/
def dmaOpen : Dev := qPush (put 0x6820 0x13 0 64 (put 0x6820 0x15 0 0x2000000 dmaHost)) 2100 7
theorem witness_TuberTransfers_rings : (∀ op ∈ [0, 1, 2, 3], dmaF dmaOpen 0 2 + dmaF dmaOpen 0 3 = 64 ∧
      dmaF dmaOpen 0 5 = 0x2000000 ∧ covered dmaOpen 0 8 = false ∧ moveReserves dmaOpen 0 8 = false) ∧
    engineItems dmaOpen 2100 = [7] ∧ 0 < qRoom dmaOpen 2100 ∧ engineItems dmaHost 2100 = [] ∧ meets (burstBase 0) 64 0 8 = true ∧
    (∀ op ∈ [0, 1, 2, 3], ∀ st ∈ [0, 2, 4], ∀ w ∈ [true, false],
      jobOf (setJob dmaOpen 0 (some ⟨0, op, 0, 2100, 8, st, 0, 0, [0], w⟩)) 0 = some ⟨0, op, 0, 2100, 8, st, 0, 0, [0], w⟩) := by decide +kernel
theorem test_ring_to_tuber : let d := dmaChan (setJob dmaOpen 0 (some ⟨0, 0, 0, 2100, 8, 0, 0, 0xFFFFFFFF, [], false⟩)) 0
    d.tuber.mem = [(0, 7)] ∧ (queueOf d 2100).items = [] ∧ (jobOf d 0).map (·.moved) = some 8 := by decide +kernel

/-- SubscriptionsIdentityAndUnfreeze: a port without SV names another port and a core. -/
theorem witness_SubscriptionsIdentityAndUnfreeze_rights : let d := put 0x1004 1 0 1 host
    hasRight d 4 4 = false ∧ frozen d 4 = false ∧ (∀ t ∈ [5, 0x40, 0x53], heardB d 4 (req 0 0 [BitVec.ofNat 8 t] 0) = true ∧
      badFrame 0x0B (req 0 0 [BitVec.ofNat 8 t] 0) = false) := by decide +kernel

/-- TuberTransfers: descriptors of every direction are accepted. -/
theorem test_descriptors_accepted : ∀ op ∈ [0, 1, 2, 3],
    dmaStatus dmaOpen 0 ⟨0, op, 0, if op % 3 = 0 then 2100 else 0, 8, 0, 0, 0xFFFFFFFF, [], false⟩ op = 0 := by
  have h : 64 ≤ capacity dmaOpen := by
    have o : ¬ (oGet dmaOpen 0x6850 1 = 3 ∨ oGet dmaOpen 0x6851 1 = 3) := by decide +kernel
    simp only [capacity, if_neg o, fittedBytes]; omega
  have c : covered dmaOpen 0 8 = false ∧ moveReserves dmaOpen 0 8 = false ∧ dmaF dmaOpen 0 2 = 0 ∧ dmaF dmaOpen 0 3 = 64 ∧
      dmaF dmaOpen 0 4 = 0 ∧ dmaF dmaOpen 0 5 = 0x2000000 := by decide +kernel
  obtain ⟨c1, c2, c3, c4, c5, c6⟩ := c
  intro op hop
  simp only [List.mem_cons, List.not_mem_nil, or_false] at hop
  rcases hop with rfl | rfl | rfl | rfl <;> simp [dmaStatus, c1, c2, c3, c4, c5, c6] <;> omega

/-- LiveWritesWaitForTheCycleEnd: the better rank arrives second (the worked example of 04 R127), and two writes of one port. -/
theorem witness_LiveWritesInBothOrders :
    (let a : Live := ⟨4, 2, writeFrame h0 0x2020 0x0C 8 5, 0x2020, 0x0C, 0, 0, toLE 8 5⟩
     let b : Live := { a with port := 5 }
     let d : Dev := { modPort (modPort (put 0x1005 2 0 9 host) 4 (fun x => { x with outq := [.live a.frame 2 none] })) 5
       (fun x => { x with outq := [.live a.frame 2 none] }) with live := [b, a] }
     let d1 := bump (modPort { d with live := [] } 5 (fun x => { x with outq := [.live b.frame b.svc (some 1)] })) 0x1005 0x0C
     a.same b = true ∧ rs d 0x1004 2 < rs d 0x1005 2 ∧ (port d 4).outq = [.live a.frame 2 none] ∧ (port d 5).outq = [.live b.frame 2 none] ∧
     (applyLive d1 4 0x2020 0x0C 0 0 a.data).2.ports = d1.ports) ∧
    (let a : Live := ⟨4, 2, writeFrame h0 0x2020 0x0C 8 5, 0x2020, 0x0C, 0, 0, toLE 8 5⟩
     let d : Dev := { modPort host 4 (fun x => { x with outq := [.live a.frame 2 none, .live a.frame 2 none] }) with live := [a, a] }
     let d1 := modPort { d with live := [] } 4 (fun x => { x with outq := [.live a.frame 2 (some 0), .live a.frame 2 none] })
     (port d 4).outq = [.live a.frame a.svc none, .live a.frame a.svc none] ∧
     (applyLive d1 4 0x2020 0x0C 0 0 a.data).2.ports = d1.ports) := by decide +kernel

/-- PostEntersOneItem: a late post, one at the first sample of the earliest computable block and one at the horizon, and a queue with an item. -/
def posting (six : Nat) : State := runs 0 3 { Regs.init 5 with g := [(3, BitVec.ofNat 32 six), (5, 0x20B00740)] }
  (modQueue (put 0x3000 1 0 1 (oSet host 0x2000 2 2)) 0 (fun x => { x with items := [evPack 100 0 0 0x104 0x20B00740 0], seqs := [1] }))
theorem witness_PostEntersOneItem_keys : Dispatched (posting 0) 0 3 ∧ earliest host = 48 ∧ 0 < earliest host ∧
    48 ≤ sixNow host + horizon host ∧ mediaState (posting 48).dev = 2 ∧ (gR (regsOf (posting 48) 3) 3).toNat = 48 ∧
    rangeTakes (posting 0).dev 0 0x20B00740 0 = true ∧ 0 < qRoom (posting 0).dev 0 ∧ (numbered (queueOf (posting 0).dev 0)).length = 1 ∧
    evKey (posting 0).dev (evPack 48 0 0 0x103 0x20B00740 0) < evKey (posting 0).dev (evPack 100 0 0 0x104 0x20B00740 0) := by
  refine ⟨dispatched_of (by decide +kernel), ?_⟩; decide +kernel

/-- TransactionalStoresAreStaged: a load of a block of a word whose bytes it has staged, and of one that it has not, clean and poisoned. -/
def reading (writes : AMap Byte) (poison : List Nat) : State :=
  let d := window 0xD40000 host
  runs 0 3 (regs 0x40D40000 0 0) { modCore d 0 (fun c => { c with txn := some ⟨0, 0, 3, 0, 1, writes, [], [], [], [], [], [], none⟩ }) with
    gourd := { d.gourd with poison := poison } }
theorem witness_TransactionalStoresAreStaged_loads :
    Dispatched (reading [(0xD40000, 7), (0xD40001, 8)] []) 0 3 ∧ Dispatched (reading [(0xD40000, 7), (0xD40001, 8)] [0x1A8000]) 0 3 ∧
    Dispatched (reading [] []) 0 3 ∧ Dispatched (reading [] [0x1A8000]) 0 3 ∧
    winAllows (reading [] []).dev 0 0xD40000 8 0 = true ∧ winAllows (reading [] []).dev 0 0xD40008 8 0 = true ∧
    inBus (reading [] []).dev 0xD40000 8 = false ∧ inUserArea (asWindow (reading [] []).dev 0) 0xD40008 8 = true ∧
    isPoisoned (reading [] [0x1A8000]).dev 0xD40000 = true ∧ isPoisoned (reading [] []).dev 0xD40000 = false := by
  refine ⟨dispatched_of (by decide +kernel), dispatched_of (by decide +kernel), dispatched_of (by decide +kernel),
    dispatched_of (by decide +kernel), ?_⟩
  decide +kernel

/-- DirectLoadsOfGourd, DirectStoresToGourd, DirectAtomics: an access of a block, which counts. -/
theorem witness_DirectAccessesInBlocks : let s := reading [] []
    Dispatched s 0 3 ∧ (coreOf s.dev 0).txn.isSome = true ∧ storeOk s.dev 0 0xD40000 8 = true ∧ winAllows s.dev 0 0xD40000 8 2 = true ∧
    oGet (directShared s.dev 0) 0x0110 9 = 8 ∧ oGet (directShared s.dev 0) 0x5300 3 = 1 ∧ inUserArea (asWindow s.dev 0) 0xD40000 8 = true := by
  refine ⟨dispatched_of (by decide +kernel), ?_⟩; decide +kernel

/-- RefusedAccesses: a store into a constant area of 64 bytes, an atomic on local memory, CADD outside a block. -/
theorem witness_RefusedAccesses_kinds : let s := runs 0 3 (regs 48 0 0) (put 0x5003 0x19 0 64 host)
    Dispatched s 0 3 ∧ constKept s.dev 0 = 64 ∧ (aR (regsOf s 3) 0 0).toNat = 48 ∧ (coreOf s.dev 0).txn = none := by
  refine ⟨dispatched_of (by decide +kernel), ?_⟩; decide +kernel

/-- QueueCallsOutsideBlocks, KernelCallsInBlocks: a queue of a flow that is free, that the thread holds, that another holds, and a thread that holds
another flow. -/
def flowing (holder own : Option Nat) (d : Dev) : Dev :=
  modThr (modFlow (put 0x5C00 1 0 2051 d) 0 (fun x => { x with holder := holder })) 3 (fun x => { x with flow := own })
def holding (holder own : Option Nat) : State := kernel 2051 0 (flowing holder own host)
def queueing : State := runs 0 3 (regs 0 2051 0) (flowing none none (block 0 0 0 0 (qPush host 2051 5)).dev)
theorem witness_QueueCalls_flows :
    Dispatched (holding none none) 0 3 ∧ Dispatched (holding (some 3) (some 0)) 0 3 ∧ Dispatched (holding (some 4) none) 0 3 ∧
    Dispatched (holding (some 4) (some 1)) 0 3 ∧ Dispatched (holding none (some 1)) 0 3 ∧ Dispatched queueing 0 3 ∧
    (∀ p ∈ [(none, none), (some 3, some 0), (some 4, none), (some 4, some 1), (none, some 1)], let d := (holding p.1 p.2).dev
      flowFor d 2051 = some 0 ∧ (flowOf d 0).holder = p.1 ∧ (thr d 3).flow = p.2 ∧ queueGranted d 3 2051 = true) ∧
    queueGranted (asWindow queueing.dev 0) 3 2051 = true ∧ flowFor (asWindow queueing.dev 0) 2051 = some 0 ∧
    (queueOf queueing.dev 2051).items = [5] := by
  refine ⟨dispatched_of (by decide +kernel), dispatched_of (by decide +kernel), dispatched_of (by decide +kernel),
    dispatched_of (by decide +kernel), dispatched_of (by decide +kernel), dispatched_of (by decide +kernel), ?_⟩
  decide +kernel

/-- ViolationsFreezeThePort: a WRITE of a CO object, a request of a frozen port, a malformed one below and at the limit, a repeated one. -/
theorem witness_ViolationsFreezeThePort_more :
    (objAt 0x0000 1).map (fun r => (accAt r 0, mayWrite host 4 (accAt r 0) 0 1)) = some (.co, true) ∧
    heardB host 4 (req 0 1 [0, 0] 0) = true ∧ badFrame 2 (req 0 1 [0, 0] 0) = false ∧ ungranted host 4 0 1 0 = false ∧
    heardB frozenHost 4 (req 0x3000 2 [] 0) = true ∧ allowedFrozen 4 1 (req 0x3000 2 [] 0) = false ∧
    heardB host 4 (req 0x3000 2 [0] 0) = true ∧ badFrame 1 (req 0x3000 2 [0] 0) = true ∧ rs host 0x1004 4 ≠ 1 ∧
    rs (put 0x1004 4 0 1 host) 0x1004 4 = 1 ∧ (port host 4).protoCount + 1 = 1 ∧
    (let r : Resp := ⟨0, 1, 1, 0, 0x2000, 2, [0]⟩
     let d := modPort host 4 (fun x => { x with store := [r] })
     (port d 4).session = true ∧ (port d 4).outq = [] ∧ keptResp d 4 (req 0x2000 2 [] 0) = some r) := by decide +kernel

/-- VersionRequestsAreAnswered: a switch that is due, one that is not yet, one that waits for its answer. -/
theorem witness_VersionRequestsAreAnswered_switch :
    (let d : Dev := { staged 4 .commitPending with ver := { (staged 4 .commitPending).ver with switchAt := some 3 } }
     switchHeld d = false ∧ d.ver.switchAt.getD 0 = 3 ∧ d.ver.staging.isSome = true) ∧
    (let d : Dev := { previous with ver := { previous.ver with stage := .revertPending } }
     switchHeld d = false ∧ d.ver.previous.isSome = true ∧ d.ver.switchAt.getD 0 = 0) := by decide +kernel

/-- MediaTimeAdvances: slots and lanes in rising order, an ended voice, a free lane and eight full ones, a bus word. -/
theorem witness_MediaTimeAdvances_effects :
    (let d : Dev := { host with alloc := { host.alloc with slots := [(0, voice 0), (1, { voice 1 with status := [⟨0, true, 0, []⟩] })] } }
     (d.alloc.slots.map (·.1)).Pairwise (· < ·) ∧ (d.alloc.lanes.map (·.1)).Pairwise (· < ·) ∧ viewEnded (voice 0) 0 = false ∧
     (mfind d.alloc.slots 1).map (viewEnded · 0) = some true ∧ freeLane d 0 = some 0) ∧
    (let d : Dev := { host with alloc := { host.alloc with slots := [(0, voice 0)], lanes := (rangeFrom 0 8).map (fun n => (n, voice n)) } }
     freeLane d 0 = none ∧ ∀ j ∈ rangeFrom 0 8, (mfind d.alloc.lanes j).isSome = true) ∧
    commitsDue { host with gourd := { host.gourd with missing := [1] } } 1 = true ∧ commitsDue host 1 = false ∧
    2 ∈ rangeFrom 0 24 ∧ anaOn host 0 = false := by decide +kernel

/-- PowerResetAndTap: a warm reset while the answer to RESET_REQ := 1 leaves; a second RESET_REQ. -/
theorem witness_PowerResetAndTap_precedence : (asking host).power.phase = .awake ∧ (asking host).power.resetReq ∈ [none, some 1, some 2] ∧
    (asking host).power.resetReq = some 1 ∧ ballOut host 0 = false ∧ ballHeld host 27 0 = some false ∧ ballHeld host 27 1 = some false := by
  decide +kernel

/-- WritesOfMediaTimeAndLog: a start that finds a switch pending. TuberTransfers: a full completion queue. LinkPortsComeAndGo: a partner that has
shown both lanes for six cycles. -/
theorem witness_waiting : switchPending (staged 4 .commitPending) = true ∧ switchPending host = false ∧
    (let d := qPush (put 0x5A01 2 2050 1 dmaHost) 2050 0
     qRoom d (dmaF d 0 7) = 0 ∧ engineItems d (dmaF d 0 6) ≠ []) ∧
    (linkOf (modLink (oneLane ⟨0, .service, []⟩ 1) 0 (fun x => { x with both := some 6 })) 0).both = some 6 := by decide +kernel

/-- ConvertersAndSensors: SN31 of a muxed group belongs to the address before the latest scan. -/
theorem witness_ConvertersAndSensors_last : let d := put 0x7810 1 31 1 (put 0x781F 1 0 1 (sensing 3))
    sensorNow { d with sense := { d.sense with smxWas := 5 } } 31 = (if muxed d 31 then 253 else 248) := by decide +kernel

end Sys2Proof.Tests
end

section
/-!
PROOFS. What commands of engine time do to objects: devices that differ in objects alone, the references of the media.
-/
namespace Sys2Proof.EngineTime
open Sys2Proof Sys2Proof.Machine Sys2Proof.Laws

/-! ### Devices that differ in objects alone -/

theorem onlyObjs_refl (d : Dev) (l : List Nat) : OnlyObjs d d l := ⟨rfl, fun _ _ _ _ => rfl⟩

theorem onlyObjs_trans {d e f : Dev} {l : List Nat} (h : OnlyObjs d e l) (g : OnlyObjs e f l) : OnlyObjs d f l := by
  obtain ⟨h1, h2⟩ := h
  obtain ⟨g1, g2⟩ := g
  refine ⟨?_, fun i b k hk => (g2 i b k hk).trans (h2 i b k hk)⟩
  have := congrArg (fun x : Dev => { x with obj := d.obj }) g1
  exact (show _ = _ from this).trans h1

/-- A store into a listed object. -/
theorem onlyObjs_oSet {d e : Dev} {l : List Nat} (h : OnlyObjs d e l) (i b v : Nat) (hk : okey i b 0 ∈ l) :
    OnlyObjs d (oSet e i b v) l := by
  refine onlyObjs_trans h ⟨rfl, fun i' b' k' hn => ?_⟩
  exact oGet_oSet_other e i b v 0 i' b' k' (fun he => hn (by rw [he]; exact hk))

theorem onlyObjs_bump {d e : Dev} {l : List Nat} (h : OnlyObjs d e l) (i b n : Nat) (hk : okey i b 0 ∈ l) :
    OnlyObjs d (bump e i b n) l := onlyObjs_oSet h i b _ hk

/-- Reading an object of another key, where both keys are numerals. -/
theorem oGet_oSet_ne (d : Dev) (i b v i' b' : Nat) (h : okey i' b' 0 ≠ okey i b 0) :
    oGet (oSet d i b v) i' b' = oGet d i' b' := oGet_oSet_other _ _ _ _ _ _ _ _ h

theorem oGet_bump_ne (d : Dev) (i b n i' b' : Nat) (h : okey i' b' 0 ≠ okey i b 0) :
    oGet (bump d i b n) i' b' = oGet d i' b' := oGet_bump_other _ _ _ _ _ _ _ _ h

/-- What is to be reminded of is no object. -/
@[simp] theorem oGet_remind (d : Dev) (idx sub i b k : Nat) : oGet (remind d idx sub) i b k = oGet d i b k := rfl

/-- A command that acts on an awake device. -/
theorem makes_of_awake {i : Instr} {s : State} {f : Dev → Dev} {e : Dev} (hs : Awake s) (hi : exec i s = onAwake f s)
    (he : f s.dev = e) : Makes i s e := by
  unfold Makes; rw [hi, onAwake_next hs, he]

/-! ### References (02 R43-R52) -/

/-- The counters and the reminder of a reference that is lost, on the objects. -/
theorem refLoss_of_use {d : Dev} (h : mediaState d = 2) (ha : srcActive d ≠ 0) :
    refLoss d = remind (bump (setLock (setMedia d 3) 0) 0x2020 0x09) 0x2000 0x02 := if_pos ⟨h, ha⟩

theorem refLoss_idle {d : Dev} (h : mediaState d ≠ 2 ∨ srcActive d = 0) : refLoss d = d :=
  if_neg (by rintro ⟨h1, h2⟩; exact h.elim (· h1) h2)

theorem turnTo_crystal_of_holdover {d : Dev} (h : mediaState d = 3) :
    turnTo d 0 = setMedia (setLock (setSource d 0) 0) 2 := by
  have hm : mediaState (setLock (setSource d 0) 0) = 3 := by
    rw [← h]
    exact (oGet_oSet_ne _ _ _ _ _ _ (by decide)).trans (oGet_oSet_ne _ _ _ _ _ _ (by decide))
  simp [turnTo, hm]


/-- The state of the media is an object of its own. -/
theorem mediaState_oSet_ne (d : Dev) (i b v : Nat) (h : okey 0x2000 0x02 0 ≠ okey i b 0) :
    mediaState (oSet d i b v) = mediaState d := oGet_oSet_ne _ _ _ _ _ _ h

/-- The lock of a reference: boundary 0 in a start, MEDIA_LOCK while the media runs. -/
theorem exec_mediaLockDeclared (s : State) : exec .mediaLockDeclared s =
    onAwake (fun d => if mediaState d = 1 then boundaryZero (setLock d 1) else if mediaState d = 2 then setLock d 1 else d) s := rfl

/-- LOCK_TIMEOUT where it counts: the reference chosen is what the start waits for. -/
theorem lockTimeout_counts {s : State} (hs : Awake s) (h1 : mediaState s.dev = 1) (h2 : mediaSrc s.dev ≠ 0)
    (h3 : srcActive s.dev = mediaSrc s.dev) (h4 : s.dev.media.timedOut = false) :
    let x := remind (bump { s.dev with media := { s.dev.media with timedOut := true } } 0x2020 0x09) 0x2000 0x02
    Makes .lockTimeout s (if rs s.dev 0x2010 0x05 = 1 then setSource x 0 else x) :=
  makes_of_awake hs rfl (if_pos ⟨h1, h2, h3, h4⟩)

theorem lockTimeout_idle {s : State} (hs : Awake s)
    (h : mediaState s.dev ≠ 1 ∨ mediaSrc s.dev = 0 ∨ srcActive s.dev ≠ mediaSrc s.dev ∨ s.dev.media.timedOut = true) :
    Makes .lockTimeout s s.dev := by
  refine makes_of_awake hs rfl (if_neg ?_)
  rintro ⟨h1, h2, h3, h4⟩
  simp [h1, h2, h3, h4] at h

/-- What the timeout of a lock leaves: the count, the mark, and under FALLBACK 1 the crystal. -/
theorem lockTimeout_effect (d : Dev) :
    let x := remind (bump { d with media := { d.media with timedOut := true } } 0x2020 0x09) 0x2000 0x02
    let e := if rs d 0x2010 0x05 = 1 then setSource x 0 else x
    oGet e 0x2020 0x09 = min (topOf 0x2020 0x09) (oGet d 0x2020 0x09 + 1) ∧ e.media = { d.media with timedOut := true } ∧
      oGet e 0x2020 0x0B = (if rs d 0x2010 0x05 = 1 then 0 else oGet d 0x2020 0x0B) ∧
      OnlyObjs { d with media := e.media, ports := e.ports } e [okey 0x2020 9 0, okey 0x2020 0x0B 0] := by
  intro x e
  have hc : oGet x 0x2020 0x09 = min (topOf 0x2020 0x09) (oGet d 0x2020 0x09 + 1) :=
    (oGet_remind _ _ _ _ _ _).trans (oGet_bump_self _ _ _ _ _)
  have ha : oGet x 0x2020 0x0B = oGet d 0x2020 0x0B :=
    (oGet_remind _ _ _ _ _ _).trans (oGet_bump_ne _ _ _ _ _ _ (by decide))
  have hx : OnlyObjs { d with media := x.media, ports := x.ports } x [okey 0x2020 9 0, okey 0x2020 0x0B 0] :=
    onlyObjs_bump (onlyObjs_refl { d with media := x.media, ports := x.ports } _) 0x2020 9 1 (by simp)
  by_cases hf : rs d 0x2010 0x05 = 1
  · have he : e = setSource x 0 := if_pos hf
    rw [he, if_pos hf]
    exact ⟨(oGet_oSet_ne _ _ _ _ _ _ (by decide)).trans hc, rfl, oGet_oSet_self _ _ _ _ _, onlyObjs_oSet hx _ _ _ (by simp)⟩
  · have he : e = x := if_neg hf
    rw [he, if_neg hf]
    exact ⟨hc, rfl, ha, hx⟩

/-- What the loss of a reference in use leaves: a holdover without lock, and the count. -/
theorem refLoss_effect {d : Dev} (h : mediaState d = 2) (ha : srcActive d ≠ 0) : let e := refLoss d
    oGet e 0x2020 0x09 = min (topOf 0x2020 0x09) (oGet d 0x2020 0x09 + 1) ∧ mediaState e = 3 ∧ oGet e 0x2020 0x0A = 0 ∧
      OnlyObjs { d with ports := e.ports } e [okey 0x2020 9 0, okey 0x2020 0x0A 0, okey 0x2000 2 0] := by
  rw [refLoss_of_use h ha]
  intro e
  have hl : oGet (setLock (setMedia d 3) 0) 0x2020 0x09 = oGet d 0x2020 0x09 :=
    (oGet_oSet_ne _ _ _ _ _ _ (by decide)).trans (oGet_oSet_ne _ _ _ _ _ _ (by decide))
  refine ⟨?_, ?_, ?_, ?_⟩
  · rw [oGet_remind, oGet_bump_self, hl]
  · exact (oGet_bump_ne _ _ _ _ _ _ (by decide)).trans
      ((oGet_oSet_ne _ _ _ _ _ _ (by decide)).trans (oGet_oSet_self _ _ _ _ _))
  · exact (oGet_bump_ne _ _ _ _ _ _ (by decide)).trans (oGet_oSet_self _ _ _ _ _)
  · exact onlyObjs_bump (onlyObjs_oSet (onlyObjs_oSet (onlyObjs_refl { d with ports := e.ports } _) 0x2000 2 3 (by simp))
      0x2020 0x0A 0 (by simp)) 0x2020 9 1 (by simp)

/-- What the switch to the crystal leaves: the media runs on it, without lock. -/
theorem turnTo_crystal_effect {d : Dev} (h : mediaState d = 3) : let e := turnTo d 0
    mediaState e = 2 ∧ oGet e 0x2020 0x0A = 0 ∧ oGet e 0x2020 0x0B = 0 ∧
      OnlyObjs d e [okey 0x2020 0x0A 0, okey 0x2020 0x0B 0, okey 0x2000 2 0] := by
  rw [turnTo_crystal_of_holdover h]
  refine ⟨oGet_oSet_self _ _ _ _ _, (oGet_oSet_ne _ _ _ _ _ _ (by decide)).trans (oGet_oSet_self _ _ _ _ _),
    (oGet_oSet_ne _ _ _ _ _ _ (by decide)).trans ((oGet_oSet_ne _ _ _ _ _ _ (by decide)).trans (oGet_oSet_self _ _ _ _ _)), ?_⟩
  exact onlyObjs_oSet (onlyObjs_oSet (onlyObjs_oSet (onlyObjs_refl d _) _ _ _ (by simp)) _ _ _ (by simp)) _ _ _ (by simp)

/-- Settles O43: each event of a reference by its condition, what it does from the effect of the shared operation. -/
theorem referencesAreLostAndRegained : Obligations.ReferencesAreLostAndRegained := by
  intro s hs d st src fall active losses
  refine ⟨fun h => ?_, fun h1 h2 => ?_, fun h1 h2 h3 h4 => ?_, lockTimeout_idle hs, fun h1 h2 => ?_, fun h => ?_, fun h => ?_,
    fun h => ?_, fun h1 h2 => ?_, fun h => ?_⟩
  · have h1 : mediaState s.dev ≠ 1 := fun h1 => by rw [show st = 1 from h1] at h; cases h
    refine makes_of_awake hs (exec_mediaLockDeclared s) ?_
    exact (if_neg h1).trans (if_pos h)
  · refine makes_of_awake hs (exec_mediaLockDeclared s) ?_
    exact (if_neg h1).trans (if_neg h2)
  · obtain ⟨hc, hm, ha, ho⟩ := lockTimeout_effect d
    exact ⟨_, lockTimeout_counts hs h1 h2 h3 h4, hc, hm, ha, ho⟩
  · exact ⟨_, makes_of_awake hs rfl rfl, refLoss_effect h1 h2⟩
  · exact makes_of_awake hs rfl (refLoss_idle h)
  · exact makes_of_awake hs rfl (if_pos h)
  · exact makes_of_awake hs rfl (if_neg h)
  · exact ⟨_, makes_of_awake hs rfl (if_pos ⟨h1, h2⟩), turnTo_crystal_effect h1⟩
  · refine makes_of_awake hs rfl (if_neg ?_)
    rintro ⟨h1, h2⟩
    exact h.elim (· h1) (· h2)

/-! ### Steps -/

/-- Settles O59: the two cases of the queue are the two arms of `step`. -/
theorem stepRunsTheFrontCommand : Obligations.StepRunsTheFrontCommand :=
  ⟨fun _ _ _ => rfl, fun _ => rfl⟩

end Sys2Proof.EngineTime
end

section
/-!
PROOFS. A write of MEDIA_RUN := 0 while the media stops and a start still waits for a switch: it takes the waiting start
back (`mediaRun`), where O40 has it leave all but MEDIA_RUN alone. Such a state is reached from reset: a COMMIT that restarts its own port,
MEDIA_RUN := 1, which waits for the switch, ABORT, MEDIA_RUN := 1 before the Link cycle ends, which starts the media without ending that
wait, the lock, MEDIA_RUN := 0 and the next boundary. The device below has what matters of it.
-/
namespace Sys2Proof.EngineTime
open Sys2Proof Sys2Proof.Machine Sys2Proof.Laws

/-- The device awake with a session on UART port 4, stopping at boundary 0, while a start of the media waits for a switch. -/
def stoppingWithStart : Dev :=
  let d := oSet State.reset.dev 0x2000 0x02 2
  modPort { d with
    power := { d.power with phase := .awake }
    media := { d.media with stopM := some 0 }
    ver := { d.ver with startAfter := true } } 4 (fun x => { x with session := true })

/-- The header of the request, and the WRITE of MEDIA_RUN := 0. -/
def stopHdr : Hdr := ⟨0, 0, 1, 0⟩
def stopWrite : Frame := writeFrame stopHdr 0x2000 0x01 1 0

/-- The device that executes the WRITE, and the one on which it is applied. -/
def stopHeard : Dev :=
  modPort (queueOut stoppingWithStart 4 (.req 2 stopWrite stoppingWithStart.time.anchor)) 4 (fun x => { x with outq := [] })
def stopApplied : Dev := queueOut ((takeQuota stopHeard 4).getD stopHeard) 4 (.live stopWrite 2 none)

/-- MEDIA_RUN in the dictionary (05). -/
def mediaRunRef : ObjRef := ⟨0, 0, ⟨0x01, 1, 1, .b1, .rw, .c 0, .rg 0 1, .none, 0, 0⟩, 0⟩

theorem stopWrite_heard : Heard ⟨[], stoppingWithStart⟩ 4 2 stopWrite stopHeard := by
  refine ⟨rfl, by decide, by decide +kernel, stoppingWithStart, ?_, by decide +kernel, by decide +kernel, rfl⟩
  rw [Arrives, if_neg (by decide)]

theorem takeQuota_stopHeard : takeQuota stopHeard 4 = some ((takeQuota stopHeard 4).getD stopHeard) := by
  obtain ⟨e, he⟩ := Option.isSome_iff_exists.1 (show (takeQuota stopHeard 4).isSome = true by decide +kernel)
  rw [he]; rfl

theorem stopWrite_alone : Alone ⟨[], stoppingWithStart⟩ 4 stopWrite 0 0 stopApplied := by
  refine ⟨stopHeard, (takeQuota stopHeard 4).getD stopHeard, mediaRunRef, stopWrite_heard, by decide +kernel, by decide +kernel,
    by decide +kernel, by decide +kernel, rfl, by decide, .inl rfl, rfl, ?_, rfl, by decide, by decide +kernel, by decide +kernel,
    takeQuota_stopHeard, by decide +kernel, by decide, by decide +kernel, by decide +kernel, rfl, rfl, rfl⟩
  intro n h
  cases h

/-- Whether a start waits for a switch in the state that a command answers. -/
def startWaits : Out → Bool
  | .next u => u.dev.ver.startAfter
  | _ => false

/-- Refutes O40: MEDIA_RUN := 0 during a stop also ends the wait of a start for its switch, so VER is not left alone. -/
theorem not_writesOfMediaTimeAndLog : ¬ Obligations.WritesOfMediaTimeAndLog := by
  intro h
  obtain ⟨-, hstop, -⟩ := h ⟨[], stoppingWithStart⟩ 4 stopHdr 0 0 stopApplied
  obtain ⟨-, hunder⟩ := hstop stopWrite_alone (by decide +kernel) (by decide +kernel)
  obtain ⟨u, ⟨hu, -⟩, -, -, -, -, -, -, hframe⟩ := hunder (by decide +kernel)
  have hkept : u.dev.ver.startAfter = true := by
    have hver : u.dev.ver = stopApplied.ver := (congrArg Dev.ver hframe :)
    rw [hver]
    decide +kernel
  have hended : startWaits (exec (.mediaStop 4 stopHdr) ⟨[], stoppingWithStart⟩) = false := by decide +kernel
  rw [hu] at hended
  exact absurd (hended.symm.trans hkept) (by decide)

end Sys2Proof.EngineTime
end

section
/-!
PROOFS. What follows the opening of a window (`boundaryRest`) ends with the DMA channels, and a channel that waits for room counts the
wait in an object that is told apart by its ring's number. O44 speaks of every device, also of one whose job names a ring far beyond the 4,096
queues, which no descriptor gives (12 R354): there the count has the key of a DAC_STATE. Where every job's ring is below 4,096, the keys
differ.
-/
namespace Sys2Proof.EngineTime
open Sys2Proof Sys2Proof.Machine Sys2Proof.Laws

/-- The ring number at which the count of waits for room (5A01h.07h) has the key of DAC_STATE of channel 0 (7400h.04h). -/
def strayRing : Nat := okey 0x7400 0x04 0 - okey 0x5A01 0x07 0

theorem okey_strayRing : okey 0x5A01 0x07 strayRing = okey 0x7400 0x04 0 := by decide

/-- A wait for room in that ring is counted in DAC_STATE of channel 0. -/
theorem fullWait_strayRing (d : Dev) : oGet (fullWait d strayRing) 0x7400 0x04 =
    min (topOf 0x5A01 0x07) (oGet d 0x7400 0x04 + 1) := by
  have hkey (e : Dev) : oGet e 0x7400 0x04 = oGet e 0x5A01 0x07 strayRing := by unfold oGet; rw [okey_strayRing]
  rw [hkey, hkey d]
  exact oGet_bump_self _ _ _ _ _

/-- DMA channel 0 has four bytes to move from sample memory (OP 3) into a ring without room. -/
def strayJob : DmaJob := ⟨0, 3, 0, strayRing, 4, 0, 0, 0, [], false⟩

/-- Such a channel can do nothing but wait. -/
theorem dmaChan_strayJob {d : Dev} (hr : d.tuber.retraining = false) (hj : jobOf d 0 = some strayJob) (hq : qRoom d strayRing = 0) :
    dmaChan d 0 = fullWait (setJob d 0 (some { strayJob with waits := true })) strayRing := by
  have hmove : tuberToRing (qRoom d strayRing) d 0 = d := by rw [hq]; rfl
  have hchan : dmaChan d 0 = ringWait (tuberToRing (qRoom d strayRing) d 0) 0 := by
    rw [dmaChan, hr, hj]; rfl
  rw [hchan, hmove, ringWait, hj]
  exact if_pos ⟨.inl rfl, by decide, hq, rfl⟩

/-- The device after reset, its rings without depth, with that job. -/
def strayDevice : Dev :=
  let d := State.reset.dev
  { d with
    ver := { d.ver with active := vSet d.ver.active 0x5F00 0x07 0 }
    tuber := { d.tuber with jobs := [(0, some strayJob)] } }

/-- What a boundary does after its window has opened and before the DMA channels. -/
def beforeDma (d : Dev) (k : Nat) : Dev :=
  dropHeads (moveSwitch (evalNotes true ((rangeFrom 0 8).foldl dacState (senseBoundary d (oGet d 0x8200 0x01)))) k)

theorem boundaryRest_eq_dmaPump (d : Dev) (k : Nat) : boundaryRest d k = dmaPump (beforeDma d k) := rfl

/-- With one job alone there is one channel to serve. -/
theorem dmaPump_single {d : Dev} {c : Nat} {j : Option DmaJob} (h : d.tuber.jobs = [(c, j)]) : dmaPump d = dmaChan d c := by
  rw [dmaPump, h]; rfl

/-- All that is left is the wait of channel 0. -/
theorem boundaryRest_strayDevice : boundaryRest strayDevice 0 =
    fullWait (setJob (beforeDma strayDevice 0) 0 (some { strayJob with waits := true })) strayRing := by
  have hjobs : (beforeDma strayDevice 0).tuber.jobs = [(0, some strayJob)] := by decide +kernel
  rw [boundaryRest_eq_dmaPump, dmaPump_single hjobs]
  exact dmaChan_strayJob (by decide +kernel) (by decide +kernel) (by decide +kernel)

/-- Refutes O44: at that boundary DAC_STATE of channel 0, which is disabled, becomes 1 and not 0. -/
theorem not_mediaTimeAdvances : ¬ Obligations.MediaTimeAdvances := by
  intro h
  obtain ⟨-, -, -, -, -, -, hrest, -⟩ := h
  obtain ⟨hdac, -⟩ := hrest strayDevice 0 0
  obtain ⟨hoff, -⟩ := hdac (by decide)
  have hzero : oGet (boundaryRest strayDevice 0) 0x7400 0x04 = 0 := hoff (by decide +kernel)
  have hone : oGet (boundaryRest strayDevice 0) 0x7400 0x04 = 1 := by
    rw [boundaryRest_strayDevice, fullWait_strayRing]
    decide +kernel
  exact absurd (hzero.symm.trans hone) (by decide)

end Sys2Proof.EngineTime
end

section
/-!
PROOFS. A cycle header on a port that is no chain. The model takes it in two changes of the port's record (`takeHeader`: the
acknowledgement, then the rest), O48 in one. A record equal to that after reset is not listed, so a change to it takes every entry of the
port out of the records, and the next change puts one in; where the records list the port twice, against their canonical form, the one
change of O48 keeps the second entry. On records in canonical form the two agree.
-/
namespace Sys2Proof.EngineTime
open Sys2Proof Sys2Proof.Machine Sys2Proof.Laws

/-- The device awake with port 0 up on two lanes and its record listed twice, the first as after reset. -/
def doubledPort : Dev :=
  let d := oSet State.reset.dev (linkIdx 0) 0x09 2
  { d with
    power := { d.power with phase := .awake }
    links := [(0, Link.zero), (0, { Link.zero with two := true })] }

/-- A header of cycle 1, and a marker that measured nothing. -/
def cycleOne : List Byte := header64 (toLE 8 0 ++ toLE 4 1 ++ List.replicate 48 0#8)
def plainMarker : Marker := ⟨0, 0, 0, []⟩

/-- How often a Link record is listed in the state that a command answers. -/
def linksListed : Out → Nat
  | .next u => u.dev.links.length
  | _ => 0

/-- One change of port 0's record, to other than after reset, leaves the second entry where it is. -/
theorem links_modLink_doubledPort (f : Link → Link) (h : (f Link.zero).rxCycle ≠ 0) :
    (modLink doubledPort 0 f).links.length = 2 := by
  have hf : f Link.zero ≠ Link.zero := fun he => h (by rw [he]; rfl)
  have hlinks : (modLink doubledPort 0 f).links = mput Link.zero doubledPort.links 0 (f Link.zero) := rfl
  rw [hlinks, mput, if_neg hf]
  rfl

/-- The model lists the port once. -/
theorem cycleHeader_doubledPort : linksListed (exec (.cycleHeaderRx 0 cycleOne plainMarker) ⟨[], doubledPort⟩) = 1 := by
  decide +kernel

/-- So no single change of that record is what the model does with the header. -/
theorem cycleHeader_no_single_change {f : Link → Link} (h : (f Link.zero).rxCycle ≠ 0) :
    ¬ Makes (.cycleHeaderRx 0 cycleOne plainMarker) ⟨[], doubledPort⟩ (modLink doubledPort 0 f) := by
  intro hmakes
  have hone := cycleHeader_doubledPort
  rw [hmakes] at hone
  exact absurd ((links_modLink_doubledPort f h).symm.trans hone) (by decide)

/-- Refutes O48: the header of a port that is no chain, on a device that lists the port's record twice. -/
theorem not_linkFramesAreTaken : ¬ Obligations.LinkFramesAreTaken := by
  intro h
  obtain ⟨-, hheader, -⟩ := h ⟨[], doubledPort⟩ 0 rfl
  obtain ⟨met, hplain, -, -, -, hpoint, -⟩ := hheader cycleOne plainMarker (by decide +kernel)
  have hmet : met = doubledPort := hplain (fun hf => absurd hf.1 (by decide +kernel))
  subst hmet
  obtain ⟨hany, -⟩ := hpoint (by decide +kernel) (by decide +kernel)
  have hmakes := hany (.inl (by decide +kernel))
  have hcycle : fieldAt cycleOne 8 4 ≠ 0 := by decide +kernel
  exact cycleHeader_no_single_change hcycle hmakes

end Sys2Proof.EngineTime
end

section
/-!
PROOFS. Seals, cross-checks and the ends of deferrals, segments and fade lanes (O45): what each shared operation does in each of its
cases, then each command by its case.
-/
namespace Sys2Proof.BlockTransactions
open Sys2Proof Sys2Proof.Machine Sys2Proof.Laws Sys2Proof.EngineTime

/-! ### Seals of a Pod (03 R74-R77, R80, R83, 22 R651) -/

theorem isPod_core (n : Nat) : isPod (0x40 + n) = false := by simp [isPod]; omega

theorem isCore_core {n : Nat} (h : n < 20) : isCore (0x40 + n) = true := by simp [isCore]; omega

/-- A Pod's oldest unsealed transaction is held while its check is to come, and else lands. -/
theorem sealPod_of_work {d : Dev} {u o : Nat} {x : PodTxn} {r : List PodTxn} (ho : positionOf d u = some o)
    (hw : (podWork d o).filter (fun y => y.held.isNone) = x :: r) (ticks : Int) :
    sealPod d u ticks = if x.check && d.media.block == x.window then
        { d with alloc := { d.alloc with podTxns := d.alloc.podTxns.map (fun y =>
          if y.window = x.window ∧ y.position = o then { y with held := some (slackOf d ticks) } else y) } }
      else landPod d x u (slackOf d ticks) := by
  unfold sealPod
  rw [ho]
  dsimp only
  rw [hw]

theorem landPod_late {d : Dev} {x : PodTxn} (h : x.window + 2 ≤ d.media.block) (u : Nat) (slack : Int) :
    landPod d x u slack = takeoverSealed (dropPodTxn d x) u := if_pos h

theorem landPod_inTime {d : Dev} {x : PodTxn} (h : d.media.block < x.window + 2) (u : Nat) (slack : Int) :
    landPod d x u slack =
      let w := landStatus x.status (x.reads.foldl (fun d y => voiceRetire d y.1 y.2) (dropPodTxn d x))
      let late := if w.media.block = x.window + 1 then bump w 0x2040 0x04 else w
      let g := noteRecord (x.adds.foldl (fun d a => landAdd d x.window true x.position a.1 a.2) late) x.position x.window
      schedule (takeoverSealed (putSlack g x.window u slack) u) := if_neg (Nat.not_le.2 h)

/-- The end of a takeover is no matter of Gourd, of voices or of Stalk. -/
theorem takeoverSealed_keeps (d : Dev) (u : Nat) : (takeoverSealed d u).gourd = d.gourd ∧
    (takeoverSealed d u).alloc = d.alloc ∧ (takeoverSealed d u).stalk = d.stalk := by
  unfold takeoverSealed
  split <;> exact ⟨rfl, rfl, rfl⟩

theorem exec_seal (u : Nat) (ticks : Int) (s : State) :
    exec (.seal u ticks) s = onAwake (fun d => handOver (sealUnit d u ticks)) s := rfl

/-- A seal is that of a Pod or of a core, and a unit that hands over may then go. -/
theorem makes_seal_pod {s : State} (hs : Awake s) {u : Nat} (hu : isPod u = true) {ticks : Int} {e : Dev}
    (he : sealPod s.dev u ticks = e) : Makes (.seal u ticks) s (handOver e) := by
  refine makes_of_awake hs (exec_seal u ticks s) (congrArg handOver ?_)
  rw [sealUnit, if_pos hu, he]

theorem makes_seal_core {s : State} (hs : Awake s) {n : Nat} (hn : n < 20) {ticks : Int} {e : Dev}
    (he : sealCore s.dev n ticks = e) : Makes (.seal (0x40 + n) ticks) s (handOver e) := by
  refine makes_of_awake hs (exec_seal _ ticks s) (congrArg handOver ?_)
  rw [sealUnit, if_neg (by rw [isPod_core]; decide), if_pos (isCore_core hn), Nat.add_sub_cancel_left, he]

/-- Nothing of a Pod's seal is held: no check is set, or its window has passed. -/
theorem sealPod_lands {d : Dev} {u o : Nat} {x : PodTxn} {r : List PodTxn} (ho : positionOf d u = some o)
    (hw : (podWork d o).filter (fun y => y.held.isNone) = x :: r) (hc : x.check = false ∨ d.media.block ≠ x.window)
    (ticks : Int) : sealPod d u ticks = landPod d x u (slackOf d ticks) := by
  refine (sealPod_of_work ho hw ticks).trans (if_neg ?_)
  rcases hc with hc | hc <;> simp [hc]

/-! ### Seals of a core (03 R74-R76, 02 R37) -/

theorem sealCore_discarded {d : Dev} {n : Nat} {x : Txn} {r : List Txn} (he : (coreOf d n).ended = x :: r)
    (hl : x.window + 2 ≤ d.media.block ∨ mediaRuns d = false) (ticks : Int) :
    sealCore d n ticks = schedule (releaseFlow (takeoverSealed (modCore d n (fun c => { c with ended := r })) (0x40 + n)) x.thread) := by
  unfold sealCore
  rw [he]
  exact if_pos hl

theorem not_discarded {d : Dev} {x : Txn} (hb : d.media.block < x.window + 2) (hm : mediaRuns d = true) :
    ¬ (x.window + 2 ≤ d.media.block ∨ mediaRuns d = false) := by
  rintro (h | h)
  · exact Nat.not_le.2 hb h
  · rw [hm] at h; cases h

/-- A core's seal that is in time waits for its queues, and lands when each has room. -/
theorem sealCore_waits {d : Dev} {n : Nat} {x : Txn} {r : List Txn} (he : (coreOf d n).ended = x :: r)
    (hb : d.media.block < x.window + 2) (hm : mediaRuns d = true) (hf : fullFor d x ≠ []) (ticks : Int) :
    sealCore d n ticks = (fullFor d x).foldl fullWait d := by
  unfold sealCore
  rw [he]
  refine (if_neg (not_discarded hb hm)).trans ?_
  split
  next hq => exact absurd hq hf
  next => rfl

theorem sealCore_lands {d : Dev} {n : Nat} {x : Txn} {r : List Txn} (he : (coreOf d n).ended = x :: r)
    (hb : d.media.block < x.window + 2) (hm : mediaRuns d = true) (hf : fullFor d x = []) (ticks : Int) :
    sealCore d n ticks =
      let pop := modCore d n (fun c => { c with ended := r })
      let late := if d.media.block = x.window + 1 then bump pop 0x2040 0x04 else pop
      let g := takeoverSealed (putSlack (landTxn late x) x.window (0x40 + n) (slackOf late ticks)) (0x40 + n)
      schedule (releaseFlow g x.thread) := by
  unfold sealCore
  rw [he]
  refine (if_neg (not_discarded hb hm)).trans ?_
  rw [hf]
  rfl

/-! ### Cross-checks (22 R650, R651) -/

theorem crossCheck_of_held {d : Dev} {u o : Nat} {x : PodTxn} (ho : positionOf d u = some o)
    (hx : (podWork d o).find? (fun x => x.check && x.held.isSome) = some x) (equal : Bool) :
    crossCheck d u equal = if x.window ≠ d.media.block then d
      else if equal then landPod (bump d 0x8000 0x06) x u (x.held.getD 0)
      else podFail (voidAt (bump (bump d 0x8000 0x06) 0x8000 0x07) 0 (x.window + 1)) u 0x02
        ((checkedSlot d o x.window).getD 0) (checkerOf d o) := by
  unfold crossCheck
  rw [ho]
  dsimp only
  rw [hx]
  rfl

theorem exec_crossCheckResult (u : Nat) (equal : Bool) (s : State) :
    exec (.crossCheckResult u equal) s = onAwake (fun d => crossCheck d u equal) s := rfl

/-! ### Deferrals (10 R292) -/

theorem exec_deferralTimeout (p : Nat) (s : State) : exec (.deferralTimeout p) s = onAwake (fun d =>
    if mediaRuns d then ((deferrals d).filter (fun x => x.1 = p)).foldl (refuseDue d.media.block) d else d) s := rfl

/-- Deferrals that have time left stay. -/
theorem refuseDue_none {d : Dev} {k : Nat} {l : List (Nat × Deferral)}
    (h : l.all (fun x => decide (k < x.2.window + rs d 0x4C00 0x02)) = true) : l.foldl (refuseDue k) d = d := by
  induction l with
  | nil => rfl
  | cons x r ih =>
    simp only [List.all_cons, Bool.and_eq_true, decide_eq_true_eq] at h
    obtain ⟨hx, hr⟩ := h
    have hkeep : refuseDue k d x = d := if_neg (Nat.not_le.2 hx)
    rw [List.foldl_cons, hkeep]
    exact ih hr

/-! ### Segments and lanes (08 R234, 10 R297) -/

theorem makes_envSegmentEnd {s : State} (hs : Awake s) {n e : Nat} {v : Voice} {x : Env} (hv : mfind s.dev.alloc.slots n = some v)
    (hx : v.envs[e]? = some x) : Makes (.envSegmentEnd n e) s
      (if x.st = .run ∧ x.pendStart = false ∧ 0 < x.len ∧ x.len ≤ x.n then
        setSlot s.dev n { v with envs := setNth v.envs e (envFinish v.lat e (timeScale v.held e) x) } else s.dev) := by
  show execEnvSegmentEnd n e s = _
  simp only [execEnvSegmentEnd, onAwake_next hs, hv, hx]

theorem makes_fadeLaneEnd {s : State} (hs : Awake s) {n a len : Nat} {v : Voice} (hv : mfind s.dev.alloc.lanes n = some v)
    (hl : v.lane = some (a, len)) : Makes (.fadeLaneEnd n) s
      (if mediaRuns s.dev ∧ a + len ≤ (s.dev.media.block + 2) * blockLen s.dev then closeStreams (dropLane s.dev n) v.serial
        else s.dev) := by
  show execFadeLaneEnd n s = _
  simp only [execFadeLaneEnd, onAwake_next hs, hv, hl]

/-- Settles O45: each command by the case of the operation it calls. -/
theorem sealsChecksAndVoiceEvents : Obligations.SealsChecksAndVoiceEvents := by
  intro s hs d
  refine ⟨fun u ticks o x r hu ho hw => ⟨fun hc hb => ?_, fun hc hl => ?_, fun hc hb => ?_⟩,
    fun n ticks x r hn he => ⟨fun hl => ?_, fun hb hm => ⟨fun hf => ?_, fun hf => ?_⟩⟩,
    fun u equal o x ho hx => ⟨fun hb => ?_, fun hb hq => ?_, fun hb hq => ?_⟩, fun p hm hl => ?_, fun p x hm hl hd => ?_,
    fun n e v x hv hx => ⟨fun hr hp h0 hn => ?_, fun hr => ?_⟩, fun n a len v hv hl hm => ⟨fun ht => ?_, fun ht => ?_⟩⟩
  · refine makes_seal_pod hs hu ((sealPod_of_work ho hw ticks).trans (if_pos ?_))
    rw [hc, hb]; exact beq_self_eq_true _
  · have hland := (sealPod_lands ho hw hc ticks).trans (landPod_late hl u _)
    obtain ⟨hgourd, halloc, hstalk⟩ := takeoverSealed_keeps (dropPodTxn d x) u
    exact ⟨makes_seal_pod hs hu hland, hgourd, by rw [halloc]; rfl, by rw [halloc]; rfl, fun _ => hstalk⟩
  · exact makes_seal_pod hs hu ((sealPod_lands ho hw hc ticks).trans (landPod_inTime hb u _))
  · exact makes_seal_core hs hn (sealCore_discarded he hl ticks)
  · exact makes_seal_core hs hn (sealCore_waits he hb hm hf ticks)
  · exact makes_seal_core hs hn (sealCore_lands he hb hm hf ticks)
  · exact makes_of_awake hs (exec_crossCheckResult u _ s) ((crossCheck_of_held ho hx equal).trans (if_pos hb))
  · subst hq
    exact makes_of_awake hs (exec_crossCheckResult u _ s) ((crossCheck_of_held ho hx true).trans (if_neg (fun hne => hne hb)))
  · subst hq
    exact makes_of_awake hs (exec_crossCheckResult u _ s) ((crossCheck_of_held ho hx false).trans (if_neg (fun hne => hne hb)))
  · exact makes_of_awake hs (exec_deferralTimeout p s) ((if_pos hm).trans (refuseDue_none hl))
  · have hp : x.1 = p := by
      have hmem : x ∈ (deferrals d).filter (fun x => x.1 = p) := by rw [hl]; exact List.mem_singleton_self x
      simpa using (List.mem_filter.1 hmem).2
    refine makes_of_awake hs (exec_deferralTimeout p s) ((if_pos hm).trans ?_)
    rw [hl, ← hp]
    exact if_pos hd
  · have hmakes := makes_envSegmentEnd hs hv hx
    rwa [if_pos ⟨hr, hp, h0, hn⟩] at hmakes
  · have hmakes := makes_envSegmentEnd hs hv hx
    rwa [if_neg (fun ⟨hrun, _, _, hlen⟩ => hr.elim (· hrun) (Nat.not_lt.2 hlen))] at hmakes
  · have hmakes := makes_fadeLaneEnd hs hv hl
    rwa [if_pos ⟨hm, ht⟩] at hmakes
  · have hmakes := makes_fadeLaneEnd hs hv hl
    rwa [if_neg (fun h => absurd h.2 (Nat.not_le.2 ht))] at hmakes

end Sys2Proof.BlockTransactions
end

section
/-!
PROOFS. Accesses of format M (15 R449): the address, the registers after it, and the device on which the access is made.
-/
namespace Sys2Proof.BlockTransactions
open Sys2Proof Sys2Proof.Machine Sys2Proof.Laws

/-! ### Devices that differ in registers alone -/

/-- What no register is part of. -/
theorem onlyRegs_shared {d e : Dev} {n t : Nat} (h : OnlyRegs d e n t) :
    e.ver = d.ver ∧ e.gourd = d.gourd ∧ e.media = d.media := by
  obtain ⟨hd, -, -, -⟩ := h
  exact ⟨(congrArg Dev.ver hd :), (congrArg Dev.gourd hd :), (congrArg Dev.media hd :)⟩

theorem onlyRegs_core {d e : Dev} {n t : Nat} (h : OnlyRegs d e n t) (m : Nat) :
    (coreOf e m).txn = (coreOf d m).txn ∧ (coreOf e m).mem = (coreOf d m).mem := by
  obtain ⟨-, -, -, hc⟩ := h
  obtain ⟨hm, -⟩ := hc m
  exact ⟨(congrArg Core.txn hm :), (congrArg Core.mem hm :)⟩

theorem rs_of_ver {d e : Dev} (h : e.ver = d.ver) (i b k : Nat) : rs e i b k = rs d i b k := by unfold rs; rw [h]

theorem ver_asWindow {d e : Dev} {n t : Nat} (h : OnlyRegs d e n t) : (asWindow e n).ver = (asWindow d n).ver := by
  obtain ⟨hver, -, -⟩ := onlyRegs_shared h
  obtain ⟨htxn, -⟩ := onlyRegs_core h n
  unfold asWindow
  rw [htxn]
  cases (coreOf d n).txn with
  | none => exact hver
  | some x => simp only [inWindow, versionAt, hver]

theorem winAllows_onlyRegs {d e : Dev} {n t : Nat} (h : OnlyRegs d e n t) (a len right : Nat) :
    winAllows e n a len right = winAllows d n a len right := by
  simp only [winAllows, rs_of_ver (ver_asWindow h)]

theorem inUserArea_onlyRegs {d e : Dev} {n t : Nat} (h : OnlyRegs d e n t) (a len : Nat) :
    inUserArea (asWindow e n) a len = inUserArea (asWindow d n) a len := by
  unfold inUserArea userTop
  rw [ver_asWindow h]

theorem storeOk_onlyRegs {d e : Dev} {n t : Nat} (h : OnlyRegs d e n t) (a len : Nat) : storeOk e n a len = storeOk d n a len := by
  simp only [storeOk, winAllows_onlyRegs h, inUserArea_onlyRegs h]

theorem inBus_onlyRegs {d e : Dev} {n t : Nat} (h : OnlyRegs d e n t) (a len : Nat) : inBus e a len = inBus d a len := by
  obtain ⟨hver, -, -⟩ := onlyRegs_shared h
  unfold inBus blockLen
  rw [rs_of_ver hver]

theorem isPoisoned_onlyRegs {d e : Dev} {n t : Nat} (h : OnlyRegs d e n t) (a : Nat) : isPoisoned e a = isPoisoned d a := by
  obtain ⟨-, hgourd, -⟩ := onlyRegs_shared h
  simp only [isPoisoned, hgourd]

theorem viewBytes_onlyRegs {d e : Dev} {n t : Nat} (h : OnlyRegs d e n t) (x : Txn) (a len : Nat) :
    viewBytes e x a len = viewBytes d x a len := by
  obtain ⟨-, hgourd, hmedia⟩ := onlyRegs_shared h
  simp only [viewBytes, snapFor, hgourd, hmedia]

/-! ### The address of an access and the registers after its update (15 R449, 14 R428) -/

/-- The registers after the address update of a format-M access. -/
def regsM (r : Regs) (o : MemOp) : Regs := (memAddr r o.a o.mode o.imm).2

theorem circ_eq_stepped (r : Regs) (a : BitVec 3) (m : Int) : circ r a m = stepped r a m := by
  unfold circ stepped
  exact (apply_ite (BitVec.ofInt 32) _ _ _).symm

theorem memAddr_eq (r : Regs) (o : MemOp) : memAddr r o.a o.mode o.imm = (addrM r o, regsM r o) := by
  refine Prod.ext ?_ rfl
  unfold memAddr addrM
  by_cases h3 : o.mode = 3
  · simp [h3, circ_eq_stepped]
  · by_cases h0 : o.mode = 0
    · simp [h0]
    · have hmode : o.mode = 1 ∨ o.mode = 2 := by bv_omega
      rcases hmode with h | h <;> simp [h]

theorem aR_postMod (r : Regs) (a x : BitVec 3) (m : Int) :
    aR (postMod r a m) 0 x = if x = a then stepped r a m else aR r 0 x := by
  rw [← circ_eq_stepped]
  show mget 0 (mput 0 r.ad a.toNat (circ r a m)) x.toNat = _
  rw [mget_mput]
  by_cases h : x = a
  · subst h; simp
  · rw [if_neg h, if_neg (fun e => h (BitVec.eq_of_toNat_eq e))]; rfl

theorem regsM_eq (r : Regs) (o : MemOp) : regsM r o =
    if o.mode = 1 then postMod r o.a (aR r 3 o.a).toInt else if o.mode = 2 then postMod r o.a o.imm.toInt else r := by
  unfold regsM memAddr
  by_cases h0 : o.mode = 0
  · rw [h0]; rfl
  · simp only [if_neg h0]
    split
    · rfl
    · split <;> rfl

theorem aR_regsM (r : Regs) (o : MemOp) (x : BitVec 3) :
    aR (regsM r o) 0 x = if x = o.a then adAfterM r o else aR r 0 x := by
  rw [regsM_eq]
  unfold adAfterM
  split
  · exact aR_postMod ..
  · split
    · exact aR_postMod ..
    · split
      next h => rw [h]
      next => rfl

/-- The update is one of the address registers. -/
theorem regsM_rest (r : Regs) (o : MemOp) : regsM r o = { r with ad := (regsM r o).ad } := by
  rw [regsM_eq]
  split
  · rfl
  · split <;> rfl

/-! ### Registers after completion -/

theorem loopStep_kept (r : Regs) : (loopStep r).1.g = r.g ∧ (loopStep r).1.v = r.v ∧ (loopStep r).1.ad = r.ad ∧
    (loopStep r).1.st = r.st := by
  obtain ⟨-, h⟩ := loopStep_spec r
  exact ⟨(congrArg Regs.g h :), (congrArg Regs.v h :), (congrArg Regs.ad h :), (congrArg Regs.st h :)⟩

/-- PC and RCNT go on from registers that differ in G, V, AD and ST alone as from those before. -/
theorem nextPc_loopStep {r q : Regs} (h : { q with g := r.g, v := r.v, ad := r.ad, st := r.st } = r) :
    NextPc r (loopStep q).1 := by
  have hn := (loopStep_spec q).1
  rw [← h]
  exact hn

theorem loadFrame_loopStep {r q : Regs} (h : { q with g := r.g, v := r.v, ad := r.ad } = r) : LoadFrame r (loopStep q).1 := by
  obtain ⟨-, hkept⟩ := loopStep_spec q
  refine ⟨nextPc_loopStep (congrArg (fun z : Regs => { z with st := r.st }) h), ?_⟩
  have hq := congrArg (fun z : Regs => { z with g := r.g, v := r.v, ad := r.ad, pc := r.pc, rcnt := r.rcnt }) hkept
  exact Eq.trans hq (congrArg (fun z : Regs => { z with pc := r.pc, rcnt := r.rcnt }) h)

theorem stepsAd_loopStep {r q : Regs} {o : MemOp} (h : q.ad = (regsM r o).ad) : StepsAd r (loopStep q).1 o := by
  intro x
  obtain ⟨-, -, had, -⟩ := loopStep_kept q
  rw [← aR_regsM]
  show mget 0 (loopStep q).1.ad _ = mget 0 (regsM r o).ad _
  rw [had, h]

/-! ### The device of an access -/

/-- The device on which thread t of core n makes its access: the instruction has issued and the address is updated. -/
def accessDev (s : State) (n t : Nat) (o : MemOp) : Dev := modRegs (issue s.dev n t) t (fun _ => regsM (regsOf s t) o)

theorem onlyRegs_accessDev (s : State) (n t : Nat) (o : MemOp) : OnlyRegs s.dev (accessDev s n t o) n t :=
  onlyRegs_trans (onlyRegs_issue ..) (onlyRegs_modRegs ..)

theorem regs_accessDev (s : State) (n t : Nat) (o : MemOp) : (thr (accessDev s n t o) t).regs = regsM (regsOf s t) o := by
  rw [accessDev, thr_modRegs_self]

/-- An instruction that has changed the registers by f completes. -/
theorem next_complete {out : Out} {s : State} {e : Dev} {n t : Nat} {f : Regs → Regs}
    (h : out = .next { s with dev := complete (modRegs e t f) n t }) : ∃ u, out = .next u ∧ u.pending = s.pending ∧
      OnlyRegs e u.dev n t ∧ regsOf u t = (loopStep (f (thr e t).regs)).1 := by
  obtain ⟨hregs, honly⟩ := complete_spec (modRegs e t f) n t
  rw [thr_modRegs_self] at hregs
  exact ⟨_, h, rfl, onlyRegs_trans (onlyRegs_modRegs ..) honly, hregs⟩

theorem memOk_of_fields {o : MemOp} (h : FieldsM o) : memOk o = true := by
  unfold memOk
  rcases h with h | h | h <;> simp [h]

theorem memPairOk_of_fields {o : MemOp} (h : FieldsM o) (he : o.r.getLsbD 0 = false) : memPairOk o = true := by
  simp only [memPairOk, memOk_of_fields h, evenReg, he, Bool.not_false, Bool.and_self]

theorem memVecOk_of_fields {o : MemOp} (h : FieldsM o) (he : o.r.getLsbD 0 = false) : memVecOk o = true :=
  memPairOk_of_fields h he

theorem placeOf_gourd {c len : Nat} (h : 0x40000000 ≤ c) (hl : c - 0x40000000 + len ≤ 0x2000000) :
    placeOf c len = .gourdMem (c - 0x40000000) := by
  unfold placeOf
  rw [if_neg (by omega), if_pos ⟨h, hl⟩]

theorem vecSplit_gourd {c : Nat} (h : 0x40000000 ≤ c) (hl : c - 0x40000000 + 16 ≤ 0x2000000) : vecSplit c = true := by
  simp only [vecSplit, Bool.and_eq_true, decide_eq_true_eq]
  omega

theorem transactional_of_txn {d : Dev} {n : Nat} {x : Txn} (hx : (coreOf d n).txn = some x) : transactional d n false = true := by
  simp [transactional, hx]

/-- A load answers what the access reads, put into registers. -/
theorem loadInstr_next {s : State} {n t len : Nat} {o : MemOp} (hs : Dispatched s n t)
    (hok : (if len = 8 then memPairOk o else memOk o) = true) (m : MemSt) (put : Nat → Regs → Regs) :
    loadInstr n len o m put s =
      let x := loadAt (accessDev s n t o) n t (addrM (regsOf s t) o) len o.direct m
      .next { s with dev := complete (modRegs x.2 t (put (fromLE (x.1.getD [])))) n t } := by
  unfold loadInstr guarded
  rw [if_pos hok, coreInstr_next hs, show thr (issue s.dev n t) t = thr s.dev t from rfl,
    show (thr s.dev t).regs = regsOf s t from rfl, memAddr_eq]
  rfl

/-- A store answers what the access of its bytes leaves. -/
theorem storeInstr_next {s : State} {n t len : Nat} {o : MemOp} (hs : Dispatched s n t)
    (hok : (if len = 8 then memPairOk o else memOk o) = true) (m : MemSt) (get : Regs → Nat) :
    storeInstr n len o m get s =
      let z := storeAt (accessDev s n t o) n t (addrM (regsOf s t) o) (toLE len (get (regsOf s t))) o.direct m
      .next { s with dev := afterStore n t z } := by
  unfold storeInstr guarded
  rw [if_pos hok, coreInstr_next hs]
  dsimp only
  rw [show thr (issue s.dev n t) t = thr s.dev t from rfl, show (thr s.dev t).regs = regsOf s t from rfl, memAddr_eq]
  rfl

theorem execVld_next {s : State} {n t : Nat} {o : MemOp} (hs : Dispatched s n t) (hok : memVecOk o = true) (m m' : MemSt) :
    execVld n o m m' s =
      let x := vloadAt (accessDev s n t o) n t (addrM (regsOf s t) o) o.direct m m'
      .next { s with dev := complete (modRegs x.2 t (fun r => vW r (vField o.r) (bytesVec x.1.1))) n t } := by
  unfold execVld guarded
  rw [if_pos hok, coreInstr_next hs]
  dsimp only
  rw [show thr (issue s.dev n t) t = thr s.dev t from rfl, show (thr s.dev t).regs = regsOf s t from rfl, memAddr_eq]
  rfl

theorem execVst_next {s : State} {n t : Nat} {o : MemOp} (hs : Dispatched s n t) (hok : memVecOk o = true) (m m' : MemSt) :
    execVst n o m m' s =
      let z := vstoreAt (accessDev s n t o) n t (addrM (regsOf s t) o) (vecBytes (vR (regsOf s t) (vField o.r))) o.direct m m'
      .next { s with dev := afterStore n t z } := by
  unfold execVst guarded
  rw [if_pos hok, coreInstr_next hs]
  dsimp only
  rw [show thr (issue s.dev n t) t = thr s.dev t from rfl, show (thr s.dev t).regs = regsOf s t from rfl, memAddr_eq]
  rfl

end Sys2Proof.BlockTransactions
end

section
/-!
PROOFS. A block's stores to Gourd (O19): what is staged is read back from there (03 R71, R72).
-/
namespace Sys2Proof.BlockTransactions
open Sys2Proof Sys2Proof.Machine Sys2Proof.Laws

/-! ### Staged bytes -/

theorem mfind_mins {α : Type} (m : AMap α) (a b : Nat) (w : α) : mfind (mins m a w) b = if b = a then some w else mfind m b := by
  induction m with
  | nil => rfl
  | cons c r ih =>
    obtain ⟨k, v⟩ := c
    by_cases hk : a = k
    · subst hk
      by_cases hb : b = a <;> simp [mins, mfind, hb]
    · by_cases hlt : a < k
      · simp [mins, mfind, hk, hlt]
      · by_cases hb : b = a
        · subst hb; simp [mins, mfind, hk, hlt, ih]
        · simp [mins, mfind, hk, hlt, ih, hb]

/-- A byte after a byte string has been staged: the byte staged there, or what was staged before. -/
theorem mfind_stageBytes (l : List Byte) (m : AMap Byte) (a b : Nat) :
    mfind ((List.zip (rangeFrom a l.length) l).foldl (fun m c => mins m c.1 c.2) m) b =
      if a ≤ b ∧ b < a + l.length then l[b - a]? else mfind m b := by
  induction l generalizing m a with
  | nil => simp only [rangeFrom, List.length_nil, List.zip_nil_left, List.foldl_nil]; rw [if_neg (by omega)]
  | cons x r ih =>
    simp only [List.length_cons, rangeFrom, List.zip_cons_cons, List.foldl_cons]
    rw [ih, mfind_mins]
    by_cases hin : a + 1 ≤ b ∧ b < a + 1 + r.length
    · rw [if_pos hin, if_pos (by omega), show b - a = (b - (a + 1)) + 1 by omega, List.getElem?_cons_succ]
    · rw [if_neg hin]
      by_cases hb : b = a
      · subst hb; rw [if_pos rfl, if_pos (by omega), Nat.sub_self, List.getElem?_cons_zero]
      · rw [if_neg hb, if_neg (by omega)]

theorem getElem?_toLE {i n : Nat} (h : i < n) (v : Nat) : (toLE n v)[i]? = some (BitVec.ofNat 8 (v / 256 ^ i)) := by
  induction n generalizing i v with
  | zero => exact absurd h (Nat.not_lt_zero i)
  | succ n ih => cases i with
    | zero => simp [toLE]
    | succ i => rw [toLE, List.getElem?_cons_succ, ih (by omega), Nat.div_div_eq_div_mul, Nat.pow_succ, Nat.mul_comm]

theorem rangeFrom_eq_range' (a n : Nat) : rangeFrom a n = List.range' a n := by
  induction n generalizing a with
  | zero => rfl
  | succ n ih => rw [rangeFrom, ih, List.range'_succ]

/-- Bytes that a block has staged whole are what it reads. -/
theorem viewBytes_staged {d : Dev} {y : Txn} {a len v : Nat}
    (h : ∀ b, a ≤ b → b < a + len → mfind y.writes b = some (BitVec.ofNat 8 (v / 256 ^ (b - a)))) :
    viewBytes d y a len = toLE len v := by
  refine List.ext_getElem? (fun i => ?_)
  rw [viewBytes, rangeFrom_eq_range', List.getElem?_map]
  by_cases hi : i < len
  · rw [List.getElem?_range' hi, getElem?_toLE hi, Option.map_some, Nat.one_mul, h _ (by omega) (by omega), Nat.add_sub_cancel_left]
    rfl
  · rw [List.getElem?_eq_none (by simpa using hi), List.getElem?_eq_none (by simpa [toLE_length] using hi)]
    rfl

/-! ### The entry of a store -/

/-- The transaction with the bytes bs staged at address a: one entry more where the address has none yet. -/
def stagedTxn (x : Txn) (a : Nat) (bs : List Byte) : Txn :=
  let fresh := !x.slots.contains a
  { x with
    used := x.used + b2n fresh
    writes := (List.zip (rangeFrom a bs.length) bs).foldl (fun m c => mins m c.1 c.2) x.writes
    slots := if fresh then x.slots ++ [a] else x.slots }

theorem stagedTxn_used (x : Txn) (a : Nat) (bs : List Byte) :
    (stagedTxn x a bs).used = if a ∈ x.slots then x.used else x.used + 1 := by
  by_cases h : a ∈ x.slots <;> simp [stagedTxn, b2n, h]

theorem mem_stagedTxn_slots (x : Txn) (a : Nat) (bs : List Byte) : a ∈ (stagedTxn x a bs).slots := by
  by_cases h : a ∈ x.slots <;> simp [stagedTxn, h]

theorem mfind_stagedTxn (x : Txn) (a len v b : Nat) : mfind (stagedTxn x a (toLE len v)).writes b =
    if a ≤ b ∧ b < a + len then some (BitVec.ofNat 8 (v / 256 ^ (b - a))) else mfind x.writes b := by
  rw [stagedTxn, mfind_stageBytes, toLE_length]
  split
  next h => rw [getElem?_toLE (by omega)]
  next => rfl

/-- The device with it staged. -/
def stagedDev (d : Dev) (n : Nat) (x : Txn) (a : Nat) (bs : List Byte) : Dev :=
  modCore d n (fun c => { c with txn := some (stagedTxn x a bs) })

/-- An address that has no entry finds room among 256. -/
theorem stageWrite_room {d : Dev} {n a : Nat} {x : Txn} (hx : (coreOf d n).txn = some x) (hroom : x.used < 256 ∨ a ∈ x.slots)
    (hmax : x.used ≤ 256) (bs : List Byte) : stageWrite d n a bs = some (stagedDev d n x a bs) := by
  have hfits : ¬ 256 < x.used + b2n (!x.slots.contains a) := by
    by_cases h : a ∈ x.slots
    · simpa [b2n, h] using hmax
    · have hless := hroom.resolve_right h
      simp only [b2n]
      split <;> omega
  unfold stageWrite
  rw [hx]
  dsimp only
  unfold stage
  rw [hx]
  exact if_neg hfits

section
variable {d : Dev} {n t c a : Nat} {x : Txn} {bs : List Byte}

theorem storeAt_stages (hx : (coreOf d n).txn = some x) (hc : 0x40000000 ≤ c) (ha : c - 0x40000000 = a)
    (hend : a + bs.length ≤ 0x2000000) (hok : storeOk d n a bs.length = true) (hroom : x.used < 256 ∨ a ∈ x.slots)
    (hmax : x.used ≤ 256) (m : MemSt) : storeAt d n t c bs false m = .done (stagedDev d n x a bs) := by
  unfold storeAt
  dsimp only
  rw [placeOf_gourd hc (by rwa [ha]), ha]
  dsimp only
  rw [if_pos hok, transactional_of_txn hx, hx]
  dsimp only
  rw [stageWrite_room hx hroom hmax]

/-- A vector store whose two accesses are allowed takes one entry for all 16 bytes (15 R451). -/
theorem vstoreAt_stages (hx : (coreOf d n).txn = some x) (hc : 0x40000000 ≤ c) (ha : c - 0x40000000 = a)
    (hend : a + 16 ≤ 0x2000000) (hlow : storeOk d n a 8 = true) (hhigh : storeOk d n (a + 8) 8 = true)
    (hroom : x.used < 256 ∨ a ∈ x.slots) (hmax : x.used ≤ 256) (m m' : MemSt) :
    vstoreAt d n t c bs false m m' = .done (stagedDev d n x a bs) := by
  have hin : a + 8 ≤ 0x2000000 ∧ a + 8 + 8 ≤ 0x2000000 := by omega
  obtain ⟨hin1, hin2⟩ := hin
  have hfirst : halfOk n a d = .done d := if_pos ⟨hin1, hlow⟩
  have hsecond : halfOk n (a + 8) d = .done d := if_pos ⟨hin2, hhigh⟩
  unfold vstoreAt
  rw [if_pos (vecSplit_gourd hc (by rwa [ha])), transactional_of_txn hx, hx, ha]
  dsimp only
  unfold vstage
  simp only [hfirst, hlow, hhigh, hin1, hin2, storeNext, hsecond, stageWrite_room hx hroom hmax, decide_true, Bool.and_self,
    if_true]

end

/-! ### A store that is staged completes -/

/-- Every store of a block answers so where its bytes are staged at Gourd address a. -/
theorem staged_answers {i : Instr} {s : State} {n t a len v : Nat} {o : MemOp} {x : Txn}
    (hi : exec i s = .next { s with dev := complete (stagedDev (accessDev s n t o) n x a (toLE len v)) n t }) :
    ∃ u y, Answers i s u ∧ (coreOf u.dev n).txn = some y ∧ u.dev.gourd = s.dev.gourd ∧
      y.used = (if a ∈ x.slots then x.used else x.used + 1) ∧ a ∈ y.slots ∧
      (∀ b, mfind y.writes b = if a ≤ b ∧ b < a + len then some (BitVec.ofNat 8 (v / 256 ^ (b - a))) else mfind x.writes b) ∧
      viewBytes u.dev y a len = toLE len v ∧ (coreOf u.dev n).mem = (coreOf s.dev n).mem ∧
      LoadFrame (regsOf s t) (regsOf u t) ∧ StepsAd (regsOf s t) (regsOf u t) o ∧ (regsOf u t).g = (regsOf s t).g ∧
      (regsOf u t).v = (regsOf s t).v := by
  obtain ⟨hloop, honly⟩ := complete_spec (stagedDev (accessDev s n t o) n x a (toLE len v)) n t
  obtain ⟨-, hgourd, -⟩ := onlyRegs_shared honly
  obtain ⟨htxn, hmem⟩ := onlyRegs_core honly n
  obtain ⟨-, hmem'⟩ := onlyRegs_core (onlyRegs_accessDev s n t o) n
  have hregs : (thr (stagedDev (accessDev s n t o) n x a (toLE len v)) t).regs = regsM (regsOf s t) o := regs_accessDev s n t o
  rw [hregs] at hloop
  have hu : regsOf { s with dev := complete (stagedDev (accessDev s n t o) n x a (toLE len v)) n t } t = _ := hloop
  obtain ⟨hg, hv, -, -⟩ := loopStep_kept (regsM (regsOf s t) o)
  have hrest := regsM_rest (regsOf s t) o
  refine ⟨_, stagedTxn x a (toLE len v), ⟨hi, rfl⟩, ?_, hgourd, stagedTxn_used .., mem_stagedTxn_slots ..,
    mfind_stagedTxn x a len v, viewBytes_staged (fun b hlo hhi => ?_), ?_, ?_, ?_, ?_, ?_⟩
  · rw [htxn, stagedDev, coreOf_modCore_self]
  · rw [mfind_stagedTxn, if_pos ⟨hlo, hhi⟩]
  · rw [hmem, stagedDev, coreOf_modCore_self]
    exact hmem'
  · rw [hu]
    exact loadFrame_loopStep (by rw [hrest])
  · rw [hu]
    exact stepsAd_loopStep rfl
  · rw [hu, hg, hrest]
  · rw [hu, hv, hrest]

section
variable {s : State} {n t a len : Nat} {o : MemOp} {x : Txn}

/-- A scalar store of a block, its address allowed and its buffer with room. -/
theorem storeInstr_stages (hs : Dispatched s n t) (hok : (if len = 8 then memPairOk o else memOk o) = true)
    (hdir : o.direct = false) (hx : (coreOf s.dev n).txn = some x) (hc : 0x40000000 ≤ addrM (regsOf s t) o)
    (ha : addrM (regsOf s t) o - 0x40000000 = a) (hroom : x.used < 256 ∨ a ∈ x.slots) (hmax : x.used ≤ 256)
    (hend : a + len ≤ 0x2000000) (hstore : storeOk s.dev n a len = true) (m : MemSt) (get : Regs → Nat) :
    storeInstr n len o m get s =
      .next { s with dev := (complete (stagedDev (accessDev s n t o) n x a (toLE len (get (regsOf s t)))) n t) } := by
  have hdev := onlyRegs_accessDev s n t o
  obtain ⟨htxn, -⟩ := onlyRegs_core hdev n
  rw [storeInstr_next hs hok, hdir, storeAt_stages (htxn.trans hx) hc ha (by rwa [toLE_length])
    (by rwa [toLE_length, storeOk_onlyRegs hdev]) hroom hmax]
  rfl

theorem execVst_stages (hs : Dispatched s n t) (hok : memVecOk o = true) (hdir : o.direct = false)
    (hx : (coreOf s.dev n).txn = some x) (hc : 0x40000000 ≤ addrM (regsOf s t) o)
    (ha : addrM (regsOf s t) o - 0x40000000 = a) (hroom : x.used < 256 ∨ a ∈ x.slots) (hmax : x.used ≤ 256)
    (hend : a + 16 ≤ 0x2000000) (hlow : storeOk s.dev n a 8 = true) (hhigh : storeOk s.dev n (a + 8) 8 = true) (m m' : MemSt) :
    execVst n o m m' s = .next { s with dev := (complete (stagedDev (accessDev s n t o) n x a
      (toLE 16 (vR (regsOf s t) (vField o.r)).toNat)) n t) } := by
  have hdev := onlyRegs_accessDev s n t o
  obtain ⟨htxn, -⟩ := onlyRegs_core hdev n
  rw [execVst_next hs hok, hdir, vstoreAt_stages (htxn.trans hx) hc ha hend (by rwa [storeOk_onlyRegs hdev])
    (by rwa [storeOk_onlyRegs hdev]) hroom hmax]
  rfl

end

end Sys2Proof.BlockTransactions
end

section
/-!
PROOFS. A block's loads of Gourd (O19): staged bytes forwarded, the others as they stood at the boundary of its window (03 R69, R72), and
what a read that meets an error gives (14 R425).
-/
namespace Sys2Proof.BlockTransactions
open Sys2Proof Sys2Proof.Machine Sys2Proof.Laws

/-! ### When a load of a block finds its bytes -/

/-- A block on core n may load the len bytes at Gourd address b, which are no mix bus. -/
def Loadable (d : Dev) (n b len : Nat) : Prop :=
  b + len ≤ 0x2000000 ∧ b % len = 0 ∧ winAllows d n b len 0 = true ∧ inBus d b len = false ∧
    (inUserTables b len = true ∨ inUserArea (asWindow d n) b len = true)

/-- The block has staged every byte. -/
def Staged (x : Txn) (b len : Nat) : Prop := ∀ k, b ≤ k → k < b + len → (mfind x.writes k).isSome = true

/-- A load of the word with b meets no error, whatever is staged. -/
def Clean (d : Dev) (b : Nat) (m : MemSt) : Prop := isPoisoned d b = false ∧ (m = .ok ∨ m = .conflict)

theorem loadable_onlyRegs {d e : Dev} {n t b len : Nat} (h : OnlyRegs d e n t) (hl : Loadable d n b len) : Loadable e n b len := by
  obtain ⟨hend, halign, hwin, hbus, hopen⟩ := hl
  exact ⟨hend, halign, by rwa [winAllows_onlyRegs h], by rwa [inBus_onlyRegs h], by rwa [inUserArea_onlyRegs h]⟩

theorem clean_onlyRegs {d e : Dev} {n t b : Nat} {m : MemSt} (h : OnlyRegs d e n t) (hc : Clean d b m) : Clean e b m := by
  obtain ⟨hp, hm⟩ := hc
  exact ⟨by rwa [isPoisoned_onlyRegs h], hm⟩

theorem all_staged_iff (x : Txn) (b len : Nat) :
    (rangeFrom b len).all (fun k => (mfind x.writes k).isSome) = true ↔ Staged x b len := by
  simp only [List.all_eq_true, rangeFrom_eq_range', List.mem_range'_1, and_imp, Staged]

theorem viewBytes_append (d : Dev) (x : Txn) (b k l : Nat) :
    viewBytes d x b k ++ viewBytes d x (b + k) l = viewBytes d x b (k + l) := by
  simp only [viewBytes, rangeFrom_eq_range', ← List.map_append, List.range'_append_1]

/-! ### Memory status (13 R373, R374) -/

theorem gStatus_clean {d : Dev} {a : Nat} {m : MemSt} (h : Clean d a m) : gStatus d a m = (false, d) := by
  obtain ⟨hp, hm⟩ := h
  rcases hm with rfl | rfl <;> simp [gStatus, hp]

/-- A word already poisoned is no further event. -/
theorem gStatus_lost {d : Dev} {a : Nat} {m : MemSt} (h : isPoisoned d a = true ∨ m = .uncorrectable) :
    gStatus d a m = (true, gourdUe d a) := by
  by_cases hp : isPoisoned d a = true
  · simp [gStatus, gourdUe, hp]
  · obtain rfl := h.resolve_left hp
    simp [gStatus, hp]

theorem countRecord_kept (d : Dev) (u q : Nat) : (countRecord d u q).stalk = d.stalk ∧ (countRecord d u q).gourd = d.gourd := by
  unfold countRecord
  split
  · exact ⟨rfl, rfl⟩
  · split <;> exact ⟨rfl, rfl⟩

/-- The fault log is no matter of Stalk or of Gourd. -/
theorem writeFault_kept (d : Dev) (r : FaultRec) : (writeFault d r).stalk = d.stalk ∧ (writeFault d r).gourd = d.gourd := by
  simp only [writeFault, oSet_stalk, oSet_gourd, countRecord_kept, apply_ite Dev.stalk, apply_ite Dev.gourd, bump_stalk,
    bump_gourd, ite_self, and_self]

/-- An uncorrectable error poisons its word and is recorded. -/
theorem gourdUe_kept (d : Dev) (a : Nat) : (gourdUe d a).stalk = d.stalk ∧ (gourdUe d a).gourd.mem = d.gourd.mem := by
  unfold gourdUe
  split
  · exact ⟨rfl, rfl⟩
  · unfold addFault
    dsimp only
    rw [(writeFault_kept ..).1, (writeFault_kept ..).2]
    exact ⟨rfl, rfl⟩

/-- A read with UE status sets ST.UE. -/
theorem ueRead_kept (d : Dev) (n t : Nat) : (thr (ueRead d n t) t).regs =
    { (thr d t).regs with st := (thr d t).regs.st ||| 0x100000#32 } ∧ (ueRead d n t).gourd = d.gourd := by
  have hregs : (thr (modRegs d t (fun r => { r with st := stBit r.st 20 true })) t).regs =
      { (thr d t).regs with st := (thr d t).regs.st ||| 0x100000#32 } := by
    rw [thr_modRegs_self]
    rfl
  unfold ueRead
  dsimp only
  split <;> exact ⟨hregs, rfl⟩

/-! ### The access of a load -/

section
variable {d : Dev} {n t a c len : Nat} {x : Txn} {m : MemSt}

/-- What a block reads turns on what it has staged, and then on the status of the word. -/
theorem gLoad_block (hx : (coreOf d n).txn = some x) (hl : Loadable d n a len) :
    gLoad d n t a len false m =
      if (rangeFrom a len).all (fun i => (mfind x.writes i).isSome) then (some (viewBytes d x a len), d)
      else if (gStatus d a m).1 then (some (List.replicate len 0#8), ueRead (gStatus d a m).2 n t)
      else (some (viewBytes (gStatus d a m).2 x a len), (gStatus d a m).2) := by
  obtain ⟨-, halign, hwin, hbus, hopen⟩ := hl
  unfold gLoad
  rw [if_neg (by simp [halign, hwin]), if_neg (by simp [hbus]), if_pos (by simpa using hopen), transactional_of_txn hx, hx]

/-- A load that finds its bytes staged, or meets no error, gives the block's view and changes nothing. -/
theorem gLoad_view (hx : (coreOf d n).txn = some x) (hl : Loadable d n a len) (hs : Staged x a len ∨ Clean d a m) :
    gLoad d n t a len false m = (some (viewBytes d x a len), d) := by
  rw [gLoad_block hx hl]
  by_cases hst : Staged x a len
  · exact if_pos ((all_staged_iff ..).2 hst)
  · rw [if_neg (fun h => hst ((all_staged_iff ..).1 h)), gStatus_clean (hs.resolve_left hst)]
    rfl

/-- One that meets an error, not all its bytes staged, gives zeros. -/
theorem gLoad_lost (hx : (coreOf d n).txn = some x) (hl : Loadable d n a len) (hst : ¬ Staged x a len)
    (h : isPoisoned d a = true ∨ m = .uncorrectable) :
    gLoad d n t a len false m = (some (List.replicate len 0#8), ueRead (gourdUe d a) n t) := by
  rw [gLoad_block hx hl, if_neg (fun h => hst ((all_staged_iff ..).1 h)), gStatus_lost h]
  rfl

theorem loadAt_gourd (hc : 0x40000000 ≤ c) (ha : c - 0x40000000 = a) (hend : a + len ≤ 0x2000000) :
    loadAt d n t c len false m = gLoad d n t a len false m := by
  unfold loadAt
  rw [placeOf_gourd hc (by rwa [ha]), ha]

/-- A vector load is two accesses of 8 bytes (15 R451). -/
theorem vloadAt_view {m' : MemSt} (hx : (coreOf d n).txn = some x) (hc : 0x40000000 ≤ c) (ha : c - 0x40000000 = a)
    (hlow : Loadable d n a 8) (hhigh : Loadable d n (a + 8) 8) (hs : Staged x a 8 ∨ Clean d a m)
    (hs' : Staged x (a + 8) 8 ∨ Clean d (a + 8) m') :
    vloadAt d n t c false m m' = ((viewBytes d x a 16, false), d) := by
  have hend : a + 16 ≤ 0x2000000 := hhigh.1
  have hc' : 0x40000000 ≤ c + 8 := Nat.le_add_right_of_le hc
  have ha' : c + 8 - 0x40000000 = a + 8 := by rw [Nat.sub_add_comm hc, ha]
  unfold vloadAt
  rw [if_pos (vecSplit_gourd hc (by rwa [ha])), loadAt_gourd hc ha hlow.1, gLoad_view hx hlow hs]
  dsimp only
  rw [loadAt_gourd hc' ha' hhigh.1, gLoad_view hx hhigh hs']
  simp only [readOr, Option.getD_some, Option.isNone_some, Bool.or_self, viewBytes_append]

end

theorem fromLE_zeros (len : Nat) : fromLE (List.replicate len 0#8) = 0 := by
  induction len with
  | zero => rfl
  | succ n ih => simp [List.replicate_succ, fromLE, ih]

/-! ### G registers that a load writes -/

/-- Only the G registers matter to what a G register reads as. -/
theorem gR_of_g {q r : Regs} (h : q.g = r.g) (n : BitVec 5) : gR q n = gR r n := by unfold gR; rw [h]

theorem writesG_gW {r p q : Regs} {d : BitVec 5} {v : Word} (hp : p.g = r.g) (hq : q.g = (gW p d v).g) : WritesG r q d v := by
  intro x
  rw [gR_of_g hq, gR_gW, gR_of_g hp]

theorem pairW_rest (r : Regs) (n : BitVec 5) (v : Nat) : pairW r n v = { r with g := (pairW r n v).g } := by
  unfold pairW
  split
  · rfl
  · rw [gW_rest (gW r n _), gW_rest r n]

theorem writesPair_pairW {r p q : Regs} {d : BitVec 5} {v : Nat} (he : d.getLsbD 0 = false) (hp : p.g = r.g)
    (hq : q.g = (pairW p d v).g) : WritesPair r q d v := by
  intro x
  rw [gR_of_g hq]
  unfold pairW
  by_cases h0 : d = 0
  · rw [if_pos h0, if_pos h0, gR_of_g hp]
  · have hodd : d + 1 ≠ 0 ∧ d ≠ d + 1 := by
      constructor
      · rintro h
        have hd : d = 31#5 := by bv_omega
        rw [hd] at he
        exact absurd he (by decide)
      · bv_omega
    obtain ⟨h1, hne⟩ := hodd
    rw [if_neg h0, if_neg h0, gR_gW, gR_gW, gR_of_g hp]
    by_cases hx : x = d
    · subst hx; rw [if_neg (fun h => hne h.1), if_pos ⟨rfl, h0⟩, if_pos rfl]
    · rw [if_neg (fun h : x = d ∧ d ≠ 0 => hx h.1), if_neg hx]
      by_cases hx1 : x = d + 1
      · rw [if_pos ⟨hx1, h1⟩, if_pos hx1]
      · rw [if_neg (fun h => hx1 h.1), if_neg hx1]

/-! ### A load of a block completes -/

section
variable {r q : Regs} {o : MemOp}

/-- A load that leaves all but G, V and AD as they were. -/
theorem loadFrame_of_access (hq : { q with g := r.g, v := r.v, ad := r.ad } = { regsM r o with g := r.g, v := r.v, ad := r.ad }) :
    LoadFrame r (loopStep q).1 := loadFrame_loopStep (hq.trans (by rw [regsM_rest]))

/-- What a load that put G registers leaves. -/
theorem load_regs (hq : q = { regsM r o with g := q.g }) : LoadFrame r (loopStep q).1 ∧ StepsAd r (loopStep q).1 o ∧
    (loopStep q).1.v = r.v := by
  obtain ⟨-, hv, -, -⟩ := loopStep_kept q
  refine ⟨loadFrame_of_access (by rw [hq]), stepsAd_loopStep (by rw [hq]), hv.trans ?_⟩
  rw [hq, regsM_rest]

/-- The registers that a load which meets an error puts its zeros into: those after the address update, with ST.UE. -/
def lostRegs (r : Regs) (o : MemOp) : Regs := { regsM r o with st := r.st ||| 0x100000#32 }

theorem vW_rest (r : Regs) (n : BitVec 4) (x : BitVec 128) : vW r n x = { r with v := (vW r n x).v } := rfl

/-- What a load that put a V register leaves. -/
theorem vload_regs (hq : q = { regsM r o with v := q.v }) : LoadFrame r (loopStep q).1 ∧ StepsAd r (loopStep q).1 o ∧
    (loopStep q).1.g = r.g := by
  obtain ⟨hg, -, -, -⟩ := loopStep_kept q
  refine ⟨loadFrame_of_access (by rw [hq]), stepsAd_loopStep (by rw [hq]), hg.trans ?_⟩
  rw [hq, regsM_rest]

/-- What one that met an error leaves. -/
theorem lost_regs (hq : q = { lostRegs r o with g := q.g }) : NextPc r (loopStep q).1 ∧
    StepsAd r (loopStep q).1 o ∧ (loopStep q).1.st = r.st ||| 0x100000#32 := by
  obtain ⟨-, -, -, hst⟩ := loopStep_kept q
  refine ⟨nextPc_loopStep ?_, stepsAd_loopStep (by rw [hq]; rfl), hst.trans (by rw [hq]; rfl)⟩
  rw [hq, lostRegs, regsM_rest]

end

theorem regs_ueRead_access (s : State) (n t a : Nat) (o : MemOp) :
    (thr (ueRead (gourdUe (accessDev s n t o) a) n t) t).regs = lostRegs (regsOf s t) o := by
  obtain ⟨hstalk, -⟩ := gourdUe_kept (accessDev s n t o) a
  obtain ⟨hue, -⟩ := ueRead_kept (gourdUe (accessDev s n t o) a) n t
  have hthr : (thr (gourdUe (accessDev s n t o) a) t).regs = regsM (regsOf s t) o := by
    rw [← regs_accessDev s n t o]
    unfold thr
    rw [hstalk]
  rw [hue, hthr, lostRegs, regsM_rest]

/-! A load of a block that is allowed: `put` writes G registers alone, and P is what it leaves in them. -/

section
variable {s : State} {n t a len : Nat} {o : MemOp} {x : Txn} {i : Instr} {m : MemSt} {put : Nat → Regs → Regs}
  {P : Nat → Regs → Prop}
  (hi : exec i s = loadInstr n len o m put s) (hs : Dispatched s n t)
  (hok : (if len = 8 then memPairOk o else memOk o) = true) (hdir : o.direct = false)
  (hx : (coreOf s.dev n).txn = some x) (hc : 0x40000000 ≤ addrM (regsOf s t) o) (ha : addrM (regsOf s t) o - 0x40000000 = a)
  (hput : ∀ v q, put v q = { q with g := (put v q).g })
  (hP : ∀ v p q, p.g = (regsOf s t).g → q.g = (put v p).g → P v q) (hl : Loadable s.dev n a len)
include hi hs hok hdir hx hc ha hput hP hl

/-- It finds its bytes. -/
theorem load_view (hsound : Staged x a len ∨ Clean s.dev a m) :
    ∃ u, Answers i s u ∧ OnlyRegs s.dev u.dev n t ∧ LoadFrame (regsOf s t) (regsOf u t) ∧ StepsAd (regsOf s t) (regsOf u t) o ∧
      (regsOf u t).v = (regsOf s t).v ∧ P (fromLE (viewBytes s.dev x a len)) (regsOf u t) := by
  have hdev := onlyRegs_accessDev s n t o
  obtain ⟨htxn, -⟩ := onlyRegs_core hdev n
  have hnext := hi.trans (loadInstr_next hs hok m put)
  rw [hdir, loadAt_gourd hc ha hl.1, gLoad_view (htxn.trans hx) (loadable_onlyRegs hdev hl)
    (hsound.imp_right (clean_onlyRegs hdev)), viewBytes_onlyRegs hdev] at hnext
  obtain ⟨u, hu, hpending, honly, hregs⟩ := next_complete hnext
  rw [regs_accessDev] at hregs
  obtain ⟨hframe, had, hv⟩ := load_regs (hput (fromLE (viewBytes s.dev x a len)) (regsM (regsOf s t) o))
  obtain ⟨hg, -, -, -⟩ := loopStep_kept (put (fromLE (viewBytes s.dev x a len)) (regsM (regsOf s t) o))
  have hold : (regsM (regsOf s t) o).g = (regsOf s t).g := by rw [regsM_rest]
  refine ⟨u, ⟨hu, hpending⟩, onlyRegs_trans hdev honly, ?_⟩
  rw [hregs]
  exact ⟨hframe, had, hv, hP _ _ _ hold hg⟩

/-- It meets an error on bytes that are not staged. -/
theorem load_lost (hst : ¬ Staged x a len) (hlost : isPoisoned s.dev a = true ∨ m = .uncorrectable) :
    ∃ u, Answers i s u ∧ u.dev.gourd.mem = s.dev.gourd.mem ∧ NextPc (regsOf s t) (regsOf u t) ∧
      StepsAd (regsOf s t) (regsOf u t) o ∧ P 0 (regsOf u t) ∧ (regsOf u t).st = (regsOf s t).st ||| 0x100000#32 := by
  have hdev := onlyRegs_accessDev s n t o
  obtain ⟨htxn, -⟩ := onlyRegs_core hdev n
  have hnext := hi.trans (loadInstr_next hs hok m put)
  rw [hdir, loadAt_gourd hc ha hl.1, gLoad_lost (htxn.trans hx) (loadable_onlyRegs hdev hl) hst
    (by rwa [isPoisoned_onlyRegs hdev])] at hnext
  obtain ⟨u, hu, hpending, honly, hregs⟩ := next_complete hnext
  rw [Option.getD_some, fromLE_zeros, regs_ueRead_access] at hregs
  obtain ⟨-, hgourd, -⟩ := onlyRegs_shared hdev
  obtain ⟨-, hend, -⟩ := onlyRegs_shared honly
  obtain ⟨-, hmem⟩ := gourdUe_kept (accessDev s n t o) a
  obtain ⟨-, hue⟩ := ueRead_kept (gourdUe (accessDev s n t o) a) n t
  obtain ⟨hpc, had, hst'⟩ := lost_regs (hput 0 (lostRegs (regsOf s t) o))
  obtain ⟨hg, -, -, -⟩ := loopStep_kept (put 0 (lostRegs (regsOf s t) o))
  have hold : (lostRegs (regsOf s t) o).g = (regsOf s t).g := by rw [lostRegs, regsM_rest]
  refine ⟨u, ⟨hu, hpending⟩, by rw [hend, hue, hmem, hgourd], ?_⟩
  rw [hregs]
  exact ⟨hpc, had, hP _ _ _ hold hg, hst'⟩

end

/-- The vector load of a block that finds its bytes. -/
theorem vld_view {s : State} {n t a : Nat} {o : MemOp} {x : Txn} {m m' : MemSt} (hs : Dispatched s n t) (hok : memVecOk o = true)
    (hdir : o.direct = false) (hx : (coreOf s.dev n).txn = some x) (hc : 0x40000000 ≤ addrM (regsOf s t) o)
    (ha : addrM (regsOf s t) o - 0x40000000 = a) (hlow : Loadable s.dev n a 8) (hhigh : Loadable s.dev n (a + 8) 8)
    (hsound : Staged x a 8 ∨ Clean s.dev a m) (hsound' : Staged x (a + 8) 8 ∨ Clean s.dev (a + 8) m') :
    ∃ u, Answers (.vld n o m m') s u ∧ OnlyRegs s.dev u.dev n t ∧ LoadFrame (regsOf s t) (regsOf u t) ∧
      StepsAd (regsOf s t) (regsOf u t) o ∧ (regsOf u t).g = (regsOf s t).g ∧
      ∀ y, vR (regsOf u t) y = if y = o.r.extractLsb' 1 4 then BitVec.ofNat 128 (fromLE (viewBytes s.dev x a 16))
        else vR (regsOf s t) y := by
  have hdev := onlyRegs_accessDev s n t o
  obtain ⟨htxn, -⟩ := onlyRegs_core hdev n
  have hnext := Eq.trans (show exec (.vld n o m m') s = execVld n o m m' s from rfl) (execVld_next hs hok m m')
  rw [hdir, vloadAt_view (htxn.trans hx) hc ha (loadable_onlyRegs hdev hlow) (loadable_onlyRegs hdev hhigh)
    (hsound.imp_right (clean_onlyRegs hdev)) (hsound'.imp_right (clean_onlyRegs hdev)), viewBytes_onlyRegs hdev] at hnext
  obtain ⟨u, hu, hpending, honly, hregs⟩ := next_complete hnext
  rw [regs_accessDev] at hregs
  obtain ⟨hframe, had, hg⟩ := vload_regs (vW_rest (regsM (regsOf s t) o) (vField o.r) (bytesVec (viewBytes s.dev x a 16)))
  obtain ⟨-, hv, -, -⟩ := loopStep_kept (vW (regsM (regsOf s t) o) (vField o.r) (bytesVec (viewBytes s.dev x a 16)))
  have hold : (regsM (regsOf s t) o).v = (regsOf s t).v := by rw [regsM_rest]
  refine ⟨u, ⟨hu, hpending⟩, onlyRegs_trans hdev honly, ?_⟩
  rw [hregs]
  refine ⟨hframe, had, hg, fun y => ?_⟩
  have hread := vR_vW (regsM (regsOf s t) o) (vField o.r) y (bytesVec (viewBytes s.dev x a 16))
  unfold vR at hread ⊢
  rw [hv, hread, hold]
  rfl

/-! ### The obligation -/

/-- Settles O19: every store is one staged entry, every load the block's view of its bytes. -/
theorem transactionalStoresAreStaged : Obligations.TransactionalStoresAreStaged := by
  constructor
  · intro s n t o m m' x hs hf hdir r a hx hc hroom hmax stages here g
    have ha : addrM r o - 0x40000000 = a := rfl
    clear_value a
    have scalar (i : Instr) (len : Nat) (get : Regs → Nat) (hi : exec i s = storeInstr n len o m get s)
        (hok : (if len = 8 then memPairOk o else memOk o) = true) (hin : here len) : stages i len (get r) := by
      obtain ⟨hend, hstore⟩ := hin
      exact staged_answers (hi.trans (storeInstr_stages hs hok hdir hx hc ha hroom hmax hend hstore m get))
    have low (i : Instr) (len : Nat) := scalar i len (fun r => (gR r o.r).toNat)
    refine ⟨low (.stb n o m) 1 rfl (memOk_of_fields hf), low (.sth n o m) 2 rfl (memOk_of_fields hf),
      low (.stw n o m) 4 rfl (memOk_of_fields hf), fun he => scalar (.std n o m) 8 (fun r => pairR r o.r) rfl
        (memPairOk_of_fields hf he), fun he hend hlow hhigh => ?_⟩
    exact staged_answers (execVst_stages hs (memVecOk_of_fields hf he) hdir hx hc ha hroom hmax hend hlow hhigh m m')
  · intro s n t o m m' x hs hf hdir r a hx hc view here staged sound loads scalar
    have ha : addrM r o - 0x40000000 = a := rfl
    clear_value a
    have answers (i : Instr) (len : Nat) (put : Nat → Regs → Regs) (P : Nat → Regs → Prop)
        (hi : exec i s = loadInstr n len o m put s) (hok : (if len = 8 then memPairOk o else memOk o) = true)
        (hput : ∀ v q, put v q = { q with g := (put v q).g }) (hP : ∀ v p q, p.g = r.g → q.g = (put v p).g → P v q) :
        loads i len P := fun hin =>
      ⟨load_view hi hs hok hdir hx hc ha hput hP hin, load_lost hi hs hok hdir hx hc ha hput hP hin⟩
    have gAnswers (i : Instr) (len : Nat) (v : Nat → Word) (hi : exec i s = loadInstr n len o m (fun x q => gW q o.r (v x)) s)
        (hok : (if len = 8 then memPairOk o else memOk o) = true) : scalar i len v :=
      answers i len (fun x q => gW q o.r (v x)) _ hi hok (fun _ _ => gW_rest ..) (fun _ _ _ hp hq => writesG_gW hp hq)
    have pairAnswers (he : o.r.getLsbD 0 = false) : loads (.ldd n o m) 8 (fun x q => WritesPair r q o.r x) :=
      answers (.ldd n o m) 8 (fun x q => pairW q o.r x) (fun x q => WritesPair r q o.r x) rfl (memPairOk_of_fields hf he)
        (fun _ _ => pairW_rest ..) (fun _ _ _ hp hq => writesPair_pairW he hp hq)
    refine ⟨?_, ?_, ?_, ?_, ?_, pairAnswers, fun he hlow hhigh hsound hsound' => ?_⟩
    · exact gAnswers (.ldb n o m) 1 (fun x => (BitVec.ofNat 8 x).signExtend 32) rfl (memOk_of_fields hf)
    · exact gAnswers (.ldbu n o m) 1 (BitVec.ofNat 32) rfl (memOk_of_fields hf)
    · exact gAnswers (.ldh n o m) 2 (fun x => (BitVec.ofNat 16 x).signExtend 32) rfl (memOk_of_fields hf)
    · exact gAnswers (.ldhu n o m) 2 (BitVec.ofNat 32) rfl (memOk_of_fields hf)
    · exact gAnswers (.ldw n o m) 4 (BitVec.ofNat 32) rfl (memOk_of_fields hf)
    · exact vld_view hs (memVecOk_of_fields hf he) hdir hx hc ha hlow hhigh hsound hsound'

end Sys2Proof.BlockTransactions
end

section
/-!
PROOFS. Writes of threads, counters and queues (O41): what a scheduler step and the producers that go on leave of the ports and of
the power requests, a WRITE that is answered at its execution, and an ITEM that enters its queue or waits for room.
-/
namespace Sys2Proof.HostWrites
open Sys2Proof Sys2Proof.Machine Sys2Proof.Laws

/-! ### What Stalk leaves alone -/

/-- Device e has the ports and the power requests of d: what answers a live write once it is applied (04 R126, 23 R681). -/
structure HostKept (d e : Dev) : Prop where
  ports : e.ports = d.ports
  power : e.power = d.power

theorem hostKept_refl (d : Dev) : HostKept d d := ⟨rfl, rfl⟩

theorem hostKept_ite {d e f : Dev} {c : Prop} [Decidable c] (h : HostKept d e) (g : HostKept d f) :
    HostKept d (if c then e else f) := by
  split
  · exact h
  · exact g

theorem hostKept_foldl {α : Type} {d : Dev} {g : Dev → α → Dev} (hg : ∀ {e : Dev}, HostKept d e → ∀ a, HostKept d (g e a))
    (l : List α) {e : Dev} (h : HostKept d e) : HostKept d (l.foldl g e) := by
  induction l generalizing e with
  | nil => exact h
  | cons a r ih => exact ih (hg h a)

/-! The shared operations, on a device e that has kept them so far. -/

section
variable {d e : Dev} (h : HostKept d e)
include h

theorem HostKept.after_oSet (i b v k : Nat) : HostKept d (oSet e i b v k) := ⟨h.ports, h.power⟩
theorem HostKept.after_bump (i b n k : Nat) : HostKept d (bump e i b n k) := ⟨h.ports, h.power⟩
theorem HostKept.after_modThr (t : Nat) (f : Thread → Thread) : HostKept d (modThr e t f) := ⟨h.ports, h.power⟩
theorem HostKept.after_modRegs (t : Nat) (f : Regs → Regs) : HostKept d (modRegs e t f) := ⟨h.ports, h.power⟩
theorem HostKept.after_modCore (n : Nat) (f : Core → Core) : HostKept d (modCore e n f) := ⟨h.ports, h.power⟩
theorem HostKept.after_modQueue (q : Nat) (f : Queue → Queue) : HostKept d (modQueue e q f) := ⟨h.ports, h.power⟩
theorem HostKept.after_setCntRaw (c v : Nat) : HostKept d (setCntRaw e c v) := ⟨h.ports, h.power⟩
theorem HostKept.after_refill (n t : Nat) : HostKept d (refill e n t) := ⟨h.ports, h.power⟩
theorem HostKept.after_stalk (s : Stalk) : HostKept d { e with stalk := s } := ⟨h.ports, h.power⟩

/-! Ready lists and scheduler steps (16 R477-R479). -/

theorem HostKept.after_enterList (t : Nat) : HostKept d (enterList e t) := by
  unfold enterList
  exact hostKept_ite (h.after_stalk _) (h.after_stalk _)

theorem HostKept.after_leaveLists (t : Nat) : HostKept d (leaveLists e t) := h.after_stalk _

theorem HostKept.after_makeReady (t : Nat) : HostKept d (makeReady e t) := by
  unfold makeReady
  exact hostKept_ite (h.after_modThr t _) ((h.after_modThr t _).after_stalk _)

theorem HostKept.after_beginDispatch (n t : Nat) : HostKept d (beginDispatch e n t) := by
  have hswitch (f : Thread → Thread) (c : Prop) [Decidable c] :
      HostKept d (if c then bump (modThr e t f) (0x5000 + 0x20 * n) 0x08 else modThr e t f) :=
    hostKept_ite ((h.after_modThr t f).after_bump _ _ _ _) (h.after_modThr t f)
  unfold beginDispatch
  dsimp only
  exact (((hswitch _ _).after_modCore n _).after_bump _ _ _ _).after_refill n t

theorem HostKept.after_dispatchCore (n : Nat) : HostKept d (dispatchCore e n) := by
  unfold dispatchCore
  split
  · split
    · exact (h.after_leaveLists _).after_beginDispatch n _
    · exact h
  · exact h

theorem HostKept.after_schedule : HostKept d (schedule e) := by
  unfold schedule enterWoken
  exact hostKept_foldl (fun h n => HostKept.after_dispatchCore h n) _
    (hostKept_foldl (fun h t => HostKept.after_enterList h t) _ (h.after_stalk _))

/-! Writes of threads and counters (16 R468, R470, R480). -/

theorem HostKept.after_gateDown (t : Nat) : HostKept d (gateDown e t) := by
  unfold gateDown
  exact hostKept_ite ((h.after_modThr t _).after_makeReady t) (h.after_modThr t _)

theorem HostKept.after_releaseCnt (c : Nat) : HostKept d (releaseCnt e c) := by
  have hcount := h.after_bump 0x5800 0x14 1 c
  unfold releaseCnt
  exact hostKept_foldl (fun h t => HostKept.after_gateDown h t) _
    (hostKept_foldl (fun h t => HostKept.after_makeReady h t) _ (hostKept_ite (hcount.after_setCntRaw c _) hcount))

theorem HostKept.after_setLevel (t v : Nat) : HostKept d (setLevel e t v) := by
  have hlevel := h.after_oSet 0x5801 0x05 v t
  unfold setLevel
  exact (hostKept_ite ((hlevel.after_leaveLists t).after_enterList t) hlevel).after_schedule

theorem HostKept.after_kick (t : Nat) : HostKept d (kick e t) := by
  unfold kick
  exact hostKept_ite (h.after_makeReady t).after_schedule h

theorem HostKept.after_setCnt (c v : Nat) : HostKept d (setCnt e c v) := by
  have hvalue := h.after_setCntRaw c v
  unfold setCnt loadCnt
  exact (hostKept_ite (hvalue.after_releaseCnt c) hvalue).after_schedule

/-! Producers that go on, and FLUSH (16 R493, R496). -/

theorem HostKept.after_complete (n t : Nat) : HostKept d (complete e n t) := by
  unfold complete
  exact hostKept_ite ((h.after_modRegs t _).after_refill n t) (h.after_modRegs t _)

theorem HostKept.after_kret (n t v : Nat) : HostKept d (kret e n t v) := (h.after_modRegs t _).after_complete n t

theorem HostKept.after_qFill (q : Nat) (v : BitVec 128) : HostKept d (qFill e q v) := by
  have hpush : HostKept d (qPush e q v) := h.after_modQueue q _
  unfold qFill
  exact hostKept_ite hpush (hpush.after_stalk _)

theorem HostKept.after_evEnterAll (untimed : Bool) (l : List EvItem) : HostKept d (evEnterAll e untimed l) := by
  have hitems : HostKept d (l.foldl (evEnter (nextSeq e) untimed) e) := hostKept_foldl (fun h i => h.after_modQueue i.part _) l h
  unfold evEnterAll
  exact hostKept_ite hitems (((hitems.after_bump _ _ _ _).after_oSet _ _ _ _).after_oSet _ _ _ _)

theorem HostKept.after_resumePut (q t : Nat) : HostKept d (resumePut e q t) := by
  unfold resumePut
  dsimp only
  split
  · exact ((h.after_qFill q _).after_modThr t _).after_kret _ t _
  · refine hostKept_ite (HostKept.after_kret ?_ _ t _) (((h.after_modThr t _).after_evEnterAll false _).after_kret _ t 0)
    exact ⟨h.ports, h.power⟩
  · exact h

theorem HostKept.after_resumeProducer (q : Nat) : HostKept d (resumeProducer e q) := by
  unfold resumeProducer
  split
  · exact h
  · exact hostKept_ite ((h.after_modQueue q _).after_resumePut q _) h

theorem HostKept.after_flushQueue (q : Nat) : HostKept d (flushQueue e q) := by
  unfold flushQueue resumeProducers
  exact (hostKept_foldl (fun h _ => HostKept.after_resumeProducer h q) _ (h.after_modQueue q _)).after_schedule

end

/-! ### A lone write whose application keeps the ports and the power requests -/

/-- What a lone write is applied to: its state tests passed before its answer was queued, which no version sees, and no reset or
sleep is asked for. -/
theorem alone_applied {s : State} {p : Nat} {f : Frame} {inst off : Nat} {d : Dev} (h : Alone s p f inst off d) :
    (∃ e1 : Dev, liveCode e1 f.idx f.sub inst off f.payload = 0 ∧ d.ver = e1.ver) ∧ (port d p).outq = [.live f 2 none] ∧
      d.power.resetReq = none ∧ d.power.sleepReq = false := by
  obtain ⟨_, _, _, _, hout, _, _, hpower⟩ := alone_submit h
  obtain ⟨e, e1, r, -, -, -, -, -, -, -, -, -, -, -, -, hlawful⟩ := h
  obtain ⟨-, -, -, -, -, hcode, -, hreset, hsleep, rfl⟩ := hlawful
  exact ⟨⟨e1, hcode, rfl⟩, hout, hpower ▸ hreset, hpower ▸ hsleep⟩

/-- The application x of a lone write answers it. -/
theorem alone_applies {i : Instr} {s : State} {p : Nat} {f : Frame} {inst off : Nat} {d x : Dev} {c : Nat}
    (h : Alone s p f inst off d) (hi : exec i s = onAwake (fun d => writeNow d p f) s)
    (hx : applyLive d p f.idx f.sub inst off f.payload = (c, x)) (hk : HostKept d x) : Reply i s x p f 2 c [] := by
  obtain ⟨-, hout, hreset, hsleep⟩ := alone_applied h
  obtain ⟨hports, hpower⟩ := hk
  have hport : port x p = port d p := congrArg (mget Port.zero · p) hports
  have hr := alone_reply h hi
  rw [hx] at hr
  exact hr (by rw [hport, hout]) (by rw [hpower, hreset]) (by rw [hpower, hsleep])

/-! ### WRITE that is answered at its execution -/

/-- A WRITE that no live write follows from does what its request does. -/
theorem reply_write {i : Instr} {s : State} {p : Nat} {f : Frame} {e d : Dev} {c : Nat} {b : List Byte} (h : Heard s p 2 f e)
    (hi : exec i s = onAwake (fun d => writeNow d p f) s) (hx : execute e p 2 f e.time.anchor [] = (d, .done c b []))
    (ho : (port d p).outq = []) (hb : c ≠ 0 → b = []) (hl : d.live = e.live) : Reply i s d p f 2 c b := by
  have ht := heard_done h (by omega) hx ho hb (accepted_svc (by omega) _)
  have hlive : (submit s.dev p 2 f []).live = s.dev.live := by
    obtain ⟨_, _, _, _, _, _, hrest⟩ := ht
    have hd : (submit s.dev p 2 f []).live = d.live := by rw [← hrest]
    have he : e.live = s.dev.live := by rw [← heard_rest h]
    rw [hd, hl, he]
  have hnow : writeNow s.dev p f = submit s.dev p 2 f [] := by
    unfold writeNow
    exact if_neg (by rw [hlive]; omega)
  exact ⟨{ s with dev := submit s.dev p 2 f [] }, ⟨by rw [hi, onAwake_next h.1, hnow], rfl⟩, ht⟩

/-- A WRITE or BLOCK-WRITE that is taken is executed on the device with its quota used. -/
theorem execute_write {e e1 : Dev} {p : Nat} {f : Frame} (ht : Taken e p 2 f) (hq : takeQuota e p = some e1)
    (anchor : Option (Nat × Nat)) (errs : List (Nat × Bool)) : execute e p 2 f anchor errs = doWrite e1 p f := by
  obtain ⟨hfrozen, hbad⟩ := taken_execute ht
  simp [execute, charge, charged, hfrozen, hbad, hq]

theorem execute_blockWrite {e e1 : Dev} {p : Nat} {f : Frame} (ht : Taken e p 4 f) (hq : takeQuota e p = some e1)
    (anchor : Option (Nat × Nat)) (errs : List (Nat × Bool)) : execute e p 4 f anchor errs = doBlockWrite e1 p f := by
  obtain ⟨hfrozen, hbad⟩ := taken_execute ht
  simp [execute, charge, charged, hfrozen, hbad, hq]

/-- A WRITE of a scalar that passes the tests 4 to 8 of 04 R736. -/
theorem doWrite_passes {d : Dev} {p : Nat} {f : Frame} {r : ObjRef} {inst : Nat} (hr : objAt f.idx f.sub = some r)
    (hi : selector d p r.row.win = inst) (hw : mayWrite d p (accAt r inst) f.idx f.sub = true)
    (hu : ungranted d p f.idx f.sub inst = false) (ha : readOnly (accAt r inst) = false) (hd : ∀ n, r.row.ty ≠ .dom n)
    (hv : valueTest r inst f.payload = none) : doWrite d p f = writeObject d p f r inst := by
  unfold doWrite
  cases hty : r.row.ty with
  | dom n => exact absurd hty (hd n)
  | _ => simp [hr, hi, hw, hu, ha, hv, hty]

theorem hasRight_quota {d e : Dev} {p : Nat} (h : takeQuota d p = some e) (i : Nat) : hasRight e p i = hasRight d p i := by
  unfold hasRight rs; rw [quota_ver h]

/-- An RW or WO object of no power request is written with the right WR alone (04 R108). -/
theorem mayWrite_of_right {d : Dev} {p : Nat} {a : Acc} {idx sub : Nat} (ha : a = .rw ∨ a = .wo) (hi : idx ≠ 0x8230)
    (hw : hasRight d p 1 = true) : mayWrite d p a idx sub = true := by
  rcases ha with rfl | rfl <;> simp [mayWrite, hw, hi]

/-! ### Selectors (05 R152) -/

/-- The window that a selector drives. -/
def selWin : Sel → Win
  | .thread => .thread
  | .counter => .counter
  | .queue => .queue
  | .region => .region
  | .program => .program
  | .voice => .voice

theorem selectorOf_selAt (w : Sel) : selectorOf (selAt w).1 (selAt w).2 = some (selWin w) := by
  cases w <;> rfl

/-- Selectors are 16-bit RW objects outside every window. -/
theorem selector_rows (w : Sel) : (objAt (selAt w).1 (selAt w).2).all
    (fun r => decide (r.row.acc = .rw ∧ r.row.win = .none ∧ r.row.ty = .u16)) = true := by
  cases w <;> decide +kernel

theorem selector_row {w : Sel} {r : ObjRef} (h : objAt (selAt w).1 (selAt w).2 = some r) :
    r.row.acc = .rw ∧ r.row.win = .none ∧ r.row.ty = .u16 := by
  have hrow := selector_rows w
  rw [h] at hrow
  exact of_decide_eq_true hrow

theorem fromLE_toLE_two (v : Nat) : fromLE (toLE 2 v) = v % 65536 := fromLE_toLE 2 v

/-- The write of a selector: the port's selection, at execution. -/
theorem doWrite_selector {d : Dev} {p : Nat} {h : Hdr} {w : Sel} {v : Nat} {r : ObjRef}
    (hr : objAt (selAt w).1 (selAt w).2 = some r) (hw : hasRight d p 1 = true) (hv : valueTest r 0 (toLE 2 v) = none) :
    doWrite d p (writeFrame h (selAt w).1 (selAt w).2 2 v) = (select d p (selWin w) (v % 65536), .code 0) := by
  obtain ⟨hacc, hwin, hty⟩ := selector_row hr
  have hat : accAt r 0 = .rw := by simp [accAt, hwin, hacc]
  have hidx : (selAt w).1 ≠ 0x8230 ∧ (selAt w).1 ≠ 0x5A01 := by cases w <;> decide
  rw [doWrite_passes (inst := 0) hr (by rw [hwin]; rfl) (mayWrite_of_right (.inl hat) hidx.1 hw)
    (by simp [ungranted, writeFrame, hidx.2]) (by rw [hat]; rfl) (by simp [hty]) hv]
  unfold writeObject
  rw [if_neg (by simp [hacc])]
  show (match selectorOf (selAt w).1 (selAt w).2 with | some x => (select d p x (fromLE (toLE 2 v)), Ans.code 0) | none => _) = _
  rw [selectorOf_selAt, fromLE_toLE_two]

/-! ### TAKE (16 R495) -/

/-- TAKE in the dictionary. -/
def takeRef : ObjRef := ⟨0, 0, ⟨0x0A, 1, 1, .b1, .wo, .c 0, .rg 1 1, .queue, 0, 0⟩, 0⟩

theorem objAt_take : objAt 0x5A01 0x0A = some takeRef := by decide +kernel

/-- The grant of a port is asked for mailboxes and I/O rings alone. -/
theorem ungranted_of {d : Dev} {p sub q : Nat} (h : hostQueue d q = false ∨ granted d p q = true) :
    ungranted d p 0x5A01 sub q = false := by
  rcases h with h | h <;> simp [ungranted, h]

theorem doWrite_take {d : Dev} {p : Nat} {h : Hdr} (hw : hasRight d p 1 = true)
    (hg : hostQueue d (port d p).selQueue = false ∨ granted d p (port d p).selQueue = true) :
    doWrite d p (writeFrame h 0x5A01 0x0A 1 1) =
      if hostQueue d (port d p).selQueue then (dropHead d (port d p).selQueue, .code 0) else (d, .code 3) := by
  rw [doWrite_passes (inst := (port d p).selQueue) objAt_take rfl (mayWrite_of_right (.inr (by rfl)) (show 0x5A01 ≠ 0x8230 by decide) hw)
    (ungranted_of hg) rfl (by simp [takeRef]) (by rfl)]
  rfl

/-! ### ITEM (16 R495) -/

/-- ITEM in the dictionary. -/
def itemRef : ObjRef := ⟨0, 0, ⟨0x09, 1, 1, .dom 16, .rw, .c 0, .any, .queue, 0, 0⟩, 0⟩

theorem objAt_item : objAt 0x5A01 0x09 = some itemRef := by decide +kernel

/-- The BLOCK-WRITE of an item in one segment, which is the first and the last. -/
def itemFrame (h : Hdr) (v : BitVec 128) : Frame :=
  ⟨h.node, h.off, h.seq, h.flags % 4 + 12, 0x5A01, 0x09, toLE 4 0 ++ toLE 16 v.toNat⟩

theorem itemFrame_first (h : Hdr) (v : BitVec 128) : bitOf (itemFrame h v).flags 2 = true :=
  decide_eq_true (show (h.flags % 4 + 12) / 2 ^ 2 % 2 = 1 by omega)

/-- The layout of an ITEM write: FIRST and LAST, offset 0, 16 bytes. -/
theorem itemFrame_layout (h : Hdr) (v : BitVec 128) :
    ¬ ((itemFrame h v).flags / 4 % 4 ≠ 3 ∨ pl (itemFrame h v) 0 4 ≠ 0 ∨ (itemFrame h v).payload.length ≠ 20) := by
  have hoff : pl (itemFrame h v) 0 4 = 0 := rfl
  have hlen : (itemFrame h v).payload.length = 20 := by simp [itemFrame, toLE_length]
  have hflags : (itemFrame h v).flags / 4 % 4 = 3 := by simp only [itemFrame]; omega
  simp [hoff, hlen, hflags]

theorem itemFrame_value (h : Hdr) (v : BitVec 128) : BitVec.ofNat 128 (fromLE ((itemFrame h v).payload.drop 4)) = v := by
  have hdrop : (itemFrame h v).payload.drop 4 = toLE 16 v.toNat := List.drop_left' (toLE_length 4 0)
  rw [hdrop, fromLE_toLE]
  exact BitVec.eq_of_toNat_eq (by rw [BitVec.toNat_ofNat]; have := v.isLt; omega)

theorem dropOpen_none {d : Dev} {p : Nat} (h : (port d p).xfer = none) (f : Frame) : dropOpen d p f = d := by
  simp [dropOpen, h]

/-- ITEM of a queue that is none of the hosts', or that grants the port: it is refused, or enters or waits for room. -/
theorem doBlockWrite_item {d : Dev} {p : Nat} {h : Hdr} {v : BitVec 128} (hw : hasRight d p 1 = true)
    (hg : hostQueue d (port d p).selQueue = false ∨ granted d p (port d p).selQueue = true) :
    doBlockWrite d p (itemFrame h v) =
      if hostQueue d (port d p).selQueue = false then (d, .code 3)
      else if frozen (dropOpen d p (itemFrame h v)) p then (dropOpen d p (itemFrame h v), .code 5)
      else (dropOpen d p (itemFrame h v), .wait (.item (itemFrame h v) (port d p).selQueue v)) := by
  have hs : segmentOk d p (itemFrame h v) = true := by simp [segmentOk, itemFrame_first]
  have hi : (itemFrame h v).idx = 0x5A01 := rfl
  have hb : (itemFrame h v).sub = 0x09 := rfl
  have hsel : selector d p itemRef.row.win = (port d p).selQueue := rfl
  have ha : accAt itemRef (port d p).selQueue = .rw := rfl
  have hm : mayWrite d p .rw 0x5A01 0x09 = true := mayWrite_of_right (.inl rfl) (by decide) hw
  have hu := ungranted_of (p := p) (sub := 0x09) hg
  unfold doBlockWrite
  simp only [hs, hi, hb, objAt_item, hsel, ha, hm, hu, if_neg (itemFrame_layout h v), itemFrame_value]
  rfl

theorem doBlockWrite_item_refused {d : Dev} {p : Nat} {h : Hdr} {v : BitVec 128} (hw : hasRight d p 1 = true)
    (hq : hostQueue d (port d p).selQueue = false) : doBlockWrite d p (itemFrame h v) = (d, .code 3) := by
  rw [doBlockWrite_item hw (.inl hq), if_pos hq]

theorem doBlockWrite_item_taken {d : Dev} {p : Nat} {h : Hdr} {v : BitVec 128} (hw : hasRight d p 1 = true)
    (hq : hostQueue d (port d p).selQueue = true) (hg : granted d p (port d p).selQueue = true) (hx : (port d p).xfer = none)
    (hf : frozen d p = false) :
    doBlockWrite d p (itemFrame h v) = (d, .wait (.item (itemFrame h v) (port d p).selQueue v)) := by
  rw [doBlockWrite_item hw (.inr hg), dropOpen_none hx]
  simp [hq, hf]

/-- The wait for room is counted apart from what says that a port is frozen. -/
theorem frozen_fullWait (d : Dev) {p : Nat} (hp : p < 8) (q : Nat) : frozen (fullWait d q) p = frozen d p := by
  have hkey : okey (0x1000 + p) 0x06 0 ≠ okey 0x5A01 0x07 q := by unfold okey; omega
  unfold frozen fullWait
  rw [oGet_bump_other _ _ _ _ _ _ _ _ hkey]

/-- The device on which an ITEM stands last on its port, its wait for room counted. -/
def itemQueued (d : Dev) (p : Nat) (f : Frame) (q : Nat) (v : BitVec 128) : Dev :=
  queueOut (if 0 < qRoom d q then d else fullWait d q) p (.item f q v)

theorem itemQueued_port {d : Dev} {p : Nat} (f : Frame) (q : Nat) (v : BitVec 128) (ho : (port d p).outq = []) :
    port (itemQueued d p f q v) p = { port d p with outq := [.item f q v] } := by
  have hport : port (if 0 < qRoom d q then d else fullWait d q) p = port d p := by split <;> rfl
  rw [itemQueued, queueOut, port_modPort_self, hport, ho, List.nil_append]

theorem settleReq_item {e d : Dev} {p : Nat} {f : Frame} {q : Nat} {v : BitVec 128} {errs : List (Nat × Bool)} (hp : p < 8)
    (ho : (port d p).outq = []) (hs : (port d p).session = true) (hf : frozen d p = false) :
    settleReq e p 4 f errs (d, .wait (.item f q v)) = pumpN errs 2 (itemQueued d p f q v) p := by
  have hport := itemQueued_port f q v ho
  have hfrozen : frozen (itemQueued d p f q v) p = false := by
    show frozen (if 0 < qRoom d q then d else fullWait d q) p = false
    split
    · exact hf
    · rw [frozen_fullWait d hp, hf]
  have hsame : modPort (itemQueued d p f q v) p (fun x => { x with outq := x.outq ++ [] }) = itemQueued d p f q v :=
    modPort_same _ _ _ _ (by simp)
  unfold settleReq
  rw [switchAnswered_other (accepted_svc (by omega) _)]
  show pumpN errs 2 (let u := (if (port (itemQueued d p f q v) p).session then
      modPort (itemQueued d p f q v) p (fun x => { x with outq := x.outq ++ [] }) else itemQueued d p f q v)
    if frozen u p && !frozen e p then flushFrozen u p else u) p = _
  simp only [hport, hs, hsame, hfrozen, ite_true, Bool.false_and, Bool.false_eq_true, ite_false]

/-! ### XOFF (21 R636) -/

/-- Device e differs from d at most in UART n. -/
def OnlyUart (d e : Dev) (n : Nat) : Prop := { e with uarts := d.uarts } = d ∧ ∀ m, m ≠ n → uartOf e m = uartOf d m

theorem onlyUart_refl (d : Dev) (n : Nat) : OnlyUart d d n := ⟨rfl, fun _ _ => rfl⟩

theorem onlyUart_modUart (d : Dev) (n : Nat) (g : Uart → Uart) : OnlyUart d (modUart d n g) n :=
  ⟨rfl, fun _ hm => uartOf_modUart_other _ _ _ _ hm⟩

theorem onlyUart_trans {d e f : Dev} {n : Nat} (h : OnlyUart d e n) (g : OnlyUart e f n) : OnlyUart d f n := by
  obtain ⟨h1, h2⟩ := h
  obtain ⟨g1, g2⟩ := g
  have hf : { f with uarts := d.uarts } = { e with uarts := d.uarts } := (congrArg (fun x : Dev => { x with uarts := d.uarts }) g1 :)
  exact ⟨hf.trans h1, fun m hm => (g2 m hm).trans (h2 m hm)⟩

theorem onlyUart_startChar (d : Dev) (n : Nat) : OnlyUart d (startChar d n) n := by
  unfold startChar
  dsimp only
  split
  · exact onlyUart_refl d n
  · split
    · exact onlyUart_modUart d n _
    · split
      · exact onlyUart_refl d n
      · exact onlyUart_modUart d n _
    · exact onlyUart_refl d n

theorem onlyUart_flowCheck (d : Dev) (n : Nat) : OnlyUart d (flowCheck d n) n := by
  have hshow (g : Uart → Uart) : OnlyUart d (startChar (modUart d n g) n) n :=
    onlyUart_trans (onlyUart_modUart d n g) (onlyUart_startChar _ n)
  unfold flowCheck
  dsimp only
  split
  · exact onlyUart_refl d n
  · split
    · exact hshow _
    · split
      · exact hshow _
      · exact onlyUart_refl d n

/-- A port shows XOFF on its own UART, and a Link port on none. -/
theorem askXoff_kept (d : Dev) (p : Nat) : { askXoff d p with uarts := d.uarts } = d ∧
    ∀ n, n + 4 ≠ p → uartOf (askXoff d p) n = uartOf d n := by
  unfold askXoff showFlow
  split
  · split
    · obtain ⟨hrest, hother⟩ := onlyUart_flowCheck d (p - 4)
      exact ⟨hrest, fun n hn => hother n (by omega)⟩
    · exact ⟨rfl, fun _ _ => rfl⟩
  · exact ⟨rfl, fun _ _ => rfl⟩

/-! ### An ITEM enters its queue, or waits for room (16 R493, R495) -/

/-- The device on which an ITEM has left its port again, to enter its queue. -/
def itemTaken (d : Dev) (p : Nat) (f : Frame) (q : Nat) (v : BitVec 128) : Dev :=
  modPort (queueOut d p (.item f q v)) p (fun x => { x with outq := [] })

theorem port_itemTaken {d : Dev} {p : Nat} (f : Frame) (q : Nat) (v : BitVec 128) (ho : (port d p).outq = []) (x : Nat) :
    port (itemTaken d p f q v) x = port d x := by
  by_cases hx : x = p
  · subst hx
    rw [itemTaken, port_modPort_self, queueOut, port_modPort_self, ← ho]
  · rw [itemTaken, port_modPort_other _ _ _ _ hx, queueOut, port_modPort_other _ _ _ _ hx]

/-- An ITEM that finds room enters its queue and is answered. -/
theorem pumpOnce_item_room {d : Dev} {p : Nat} {f : Frame} {q : Nat} {v : BitVec 128} (ho : (port d p).outq = [])
    (hr : 0 < qRoom d q) (errs : List (Nat × Bool)) :
    pumpOnce (itemQueued d p f q v) p errs = some (respond (qPush (itemTaken d p f q v) q v) p f 4 0 []) := by
  have htaken : modPort (itemQueued d p f q v) p (fun x => { x with outq := [] }) = itemTaken d p f q v := by
    rw [itemQueued, if_pos hr, itemTaken]
  have hput : qPutIf (itemTaken d p f q v) q v = some (qPush (itemTaken d p f q v) q v) :=
    if_pos (show 0 < qRoom d q from hr)
  simp only [pumpOnce, itemQueued_port f q v ho, htaken, hput]

theorem told_item_room {d : Dev} {p : Nat} {f : Frame} {q : Nat} {v : BitVec 128} (hp : p < 8) (ho : (port d p).outq = [])
    (hr : 0 < qRoom d q) : Told (qPush d q v) (pumpN [] 2 (itemQueued d p f q v) p) p f 4 0 [] := by
  have hout : (port (qPush (itemTaken d p f q v) q v) p).outq = [] := (congrArg Port.outq (port_itemTaken f q v ho p)).trans ho
  have ht := respond_told (qPush (itemTaken d p f q v) q v) p f 4 0 [] hp (fun h => absurd rfl h) hout
  have hrest : (port (respond (qPush (itemTaken d p f q v) q v) p f 4 0 []) p).outq = [] := by rw [ht.1]
  rw [pumpN, pumpOnce_item_room ho hr]
  show Told _ (pumpN [] 1 _ p) p f 4 0 []
  rw [pumpN_idle _ _ _ _ hrest]
  exact told_congr ht (fun x => (port_itemTaken f q v ho x).symm) rfl

/-- An ITEM for a full queue waits. -/
theorem pumpN_item_full {d : Dev} {p : Nat} {f : Frame} {q : Nat} {v : BitVec 128} (ho : (port d p).outq = [])
    (hr : qRoom d q = 0) (errs : List (Nat × Bool)) : pumpN errs 2 (itemQueued d p f q v) p = itemQueued d p f q v := by
  have hnone : pumpOnce (itemQueued d p f q v) p errs = none := by
    have hput : qPutIf (modPort (itemQueued d p f q v) p (fun x => { x with outq := [] })) q v = none := by
      have hroom : qRoom (modPort (itemQueued d p f q v) p (fun x => { x with outq := [] })) q = 0 := by
        rw [itemQueued, if_neg (by omega)]; exact hr
      exact if_neg (by omega)
    simp only [pumpOnce, itemQueued_port f q v ho, hput]
  rw [pumpN, hnone]

/-- An ITEM for a full queue stands on its port, and queues, Links and the other UARTs are as before. -/
theorem itemQueued_full {d : Dev} {p : Nat} {f : Frame} {q : Nat} {v : BitVec 128} (ho : (port d p).outq = []) (hr : qRoom d q = 0) :
    let u := askXoff (itemQueued d p f q v) p
    (port u p).outq = [.item f q v] ∧ (∀ r, queueOf u r = queueOf d r) ∧ u.links = d.links ∧
      ∀ n, n + 4 ≠ p → uartOf u n = uartOf d n := by
  intro u
  obtain ⟨hrest, huart⟩ := askXoff_kept (itemQueued d p f q v) p
  have hfull : itemQueued d p f q v = queueOut (fullWait d q) p (.item f q v) := by rw [itemQueued, if_neg (by omega)]
  refine ⟨?_, fun r => ?_, ?_, fun n hn => ?_⟩
  · have hports : u.ports = (itemQueued d p f q v).ports := (congrArg Dev.ports hrest :)
    have hport : port u p = port (itemQueued d p f q v) p := congrArg (mget Port.zero · p) hports
    rw [hport, itemQueued_port f q v ho]
  · have hstalk : u.stalk = (itemQueued d p f q v).stalk := (congrArg Dev.stalk hrest :)
    show mget Queue.zero u.stalk.queues r = _
    rw [hstalk, hfull]; rfl
  · have hlinks : u.links = (itemQueued d p f q v).links := (congrArg Dev.links hrest :)
    rw [hlinks, hfull]; rfl
  · rw [huart n hn, hfull]; rfl

/-! ### The quota leaves queues as they are (04 R139) -/

theorem quota_selQueue {d e : Dev} {p : Nat} (h : takeQuota d p = some e) : (port e p).selQueue = (port d p).selQueue :=
  quota_selector h .queue

theorem quota_hostQueue {d e : Dev} {p : Nat} (h : takeQuota d p = some e) (q : Nat) : hostQueue e q = hostQueue d q := by
  rw [← (takeQuota_spec h).1]; rfl

theorem quota_granted {d e : Dev} {p : Nat} (h : takeQuota d p = some e) (q : Nat) : granted e p q = granted d p q := by
  rw [← (takeQuota_spec h).1]; rfl

theorem quota_heldItems {d e : Dev} {p : Nat} (h : takeQuota d p = some e) (q : Nat) : heldItems e q = heldItems d q := by
  rw [← (takeQuota_spec h).1]; rfl

theorem quota_qRoom {d e : Dev} {p : Nat} (h : takeQuota d p = some e) (q : Nat) : qRoom e q = qRoom d q := by
  rw [← (takeQuota_spec h).1]; rfl

theorem quota_frozen {d e : Dev} {p : Nat} (h : takeQuota d p = some e) : frozen e p = frozen d p := by
  rw [← (takeQuota_spec h).1]; rfl

/-! ### What each write does (16 R468, R470, R480, R495, R496) -/

theorem setLevel_ready {d : Dev} {t v : Nat} (h : (thr d t).st = .ready) :
    setLevel d t v = schedule (enterList (leaveLists (oSet d 0x5801 0x05 v t) t) t) :=
  congrArg schedule (if_pos h)

theorem setLevel_other {d : Dev} {t v : Nat} (h : (thr d t).st ≠ .ready) : setLevel d t v = schedule (oSet d 0x5801 0x05 v t) :=
  congrArg schedule (if_neg h)

theorem kick_idle {d : Dev} {t : Nat} (h : (thr d t).st = .idle) (ha : tAudio d t = false) : kick d t = schedule (makeReady d t) :=
  if_pos ⟨h, ha⟩

theorem kick_other {d : Dev} {t : Nat} (h : (thr d t).st ≠ .idle ∨ tAudio d t = true) : kick d t = d :=
  if_neg (fun ⟨hi, ha⟩ => h.elim (· hi) (fun h => by rw [ha] at h; cases h))

theorem setCnt_zero (d : Dev) (c : Nat) : setCnt d c 0 = schedule (releaseCnt (setCntRaw d c 0) c) := rfl

theorem setCnt_pos {d : Dev} {c v : Nat} (h : v ≠ 0) : setCnt d c v = schedule (setCntRaw d c v) :=
  congrArg schedule (if_neg h)

section
variable {s : State} {p : Nat} {h : Hdr} {d : Dev} {off : Nat}

theorem reply_level {v t : Nat} (ha : Alone s p (writeFrame h 0x5801 0x05 1 v) t off d) :
    Reply (.levelWrite p h v) s (setLevel d t (v % 256)) p (writeFrame h 0x5801 0x05 1 v) 2 0 [] := by
  have hr := alone_applies (i := .levelWrite p h v) ha rfl rfl ((hostKept_refl d).after_setLevel t _)
  rwa [show fromLE (writeFrame h 0x5801 0x05 1 v).payload = v % 256 from fromLE_toLE 1 v] at hr

theorem reply_kick {t : Nat} (ha : Alone s p (writeFrame h 0x5801 0x0E 1 1) t off d) :
    Reply (.kick p h) s (kick d t) p (writeFrame h 0x5801 0x0E 1 1) 2 0 [] :=
  alone_applies ha rfl rfl ((hostKept_refl d).after_kick t)

theorem counter_of_alone {v c : Nat} (ha : Alone s p (writeFrame h 0x5800 0x10 2 v) c off d) : 128 ≤ c := by
  obtain ⟨⟨e1, hcode, -⟩, -⟩ := alone_applied ha
  refine Nat.le_of_not_lt (fun hlt => ?_)
  have hbus : liveCode e1 0x5800 0x10 c off (toLE 2 v) = 3 := congrArg Prod.fst (if_pos hlt)
  exact absurd (hbus.symm.trans hcode) (by decide)

theorem reply_cntValue {v c : Nat} (ha : Alone s p (writeFrame h 0x5800 0x10 2 v) c off d) :
    Reply (.cntValue p h v) s (setCnt d c (v % 65536)) p (writeFrame h 0x5800 0x10 2 v) 2 0 [] := by
  have hx : applyLive d p 0x5800 0x10 c off (toLE 2 v) = (0, setCnt d c (v % 65536)) := by
    rw [← fromLE_toLE_two v]
    exact if_neg (by have := counter_of_alone ha; omega)
  exact alone_applies ha rfl hx ((hostKept_refl d).after_setCnt c _)

theorem flushable_of_alone {q : Nat} (ha : Alone s p (writeFrame h 0x5A01 0x0B 1 1) q off d) : ¬ (qKind d q = 1 ∨ qKind d q = 2) := by
  obtain ⟨⟨e1, hcode, hver⟩, -⟩ := alone_applied ha
  have hkind : qKind d q = qKind e1 q := by unfold qKind; rw [hver]
  rw [hkind]
  intro hengine
  have hrefused : liveCode e1 0x5A01 0x0B q off (toLE 1 1) = 3 := congrArg Prod.fst (if_pos hengine)
  exact absurd (hrefused.symm.trans hcode) (by decide)

theorem reply_flush {q : Nat} (ha : Alone s p (writeFrame h 0x5A01 0x0B 1 1) q off d) :
    Reply (.flush p h) s (flushQueue d q) p (writeFrame h 0x5A01 0x0B 1 1) 2 0 [] :=
  alone_applies ha rfl (if_neg (flushable_of_alone ha)) ((hostKept_refl d).after_flushQueue q)

end

section
variable {s : State} {p : Nat} {h : Hdr} {e e1 : Dev}

/-- The quota is used on a port with nothing to answer. -/
theorem quota_idle {svc : Nat} {f : Frame} (hh : Heard s p svc f e) (hq : takeQuota e p = some e1) : (port e1 p).outq = [] :=
  (takeQuota_spec hq).2.1.trans (heard_outq hh)

theorem reply_select {w : Sel} {v : Nat} {r : ObjRef} (hh : Heard s p 2 (writeFrame h (selAt w).1 (selAt w).2 2 v) e)
    (ht : Taken e p 2 (writeFrame h (selAt w).1 (selAt w).2 2 v)) (hw : hasRight e p 1 = true) (hq : takeQuota e p = some e1)
    (hr : objAt (selAt w).1 (selAt w).2 = some r) (hv : valueTest r 0 (toLE 2 v) = none) :
    Reply (.windowSelect p h w v) s (select e1 p (selWin w) (v % 65536)) p (writeFrame h (selAt w).1 (selAt w).2 2 v) 2 0 [] := by
  have hout : (port e1 p).outq = [] := quota_idle hh hq
  have hlive : e1.live = e.live := by rw [← (takeQuota_spec hq).1]
  have hx := (execute_write ht hq e.time.anchor []).trans (doWrite_selector (h := h) hr ((hasRight_quota hq 1).trans hw) hv)
  refine reply_write hh rfl hx ?_ (fun h => absurd rfl h) hlive
  rw [select, port_modPort_self]
  cases w <;> exact hout

/-- TAKE on the device with its quota used, by what the device had before. -/
theorem doWrite_take_quota (hw : hasRight e p 1 = true) (hq : takeQuota e p = some e1)
    (hg : hostQueue e (port e p).selQueue = false ∨ granted e p (port e p).selQueue = true) :
    doWrite e1 p (writeFrame h 0x5A01 0x0A 1 1) =
      if hostQueue e (port e p).selQueue then (dropHead e1 (port e p).selQueue, .code 0) else (e1, .code 3) := by
  rw [← quota_selQueue hq, ← quota_hostQueue hq]
  rw [← quota_selQueue hq, ← quota_hostQueue hq, ← quota_granted hq] at hg
  exact doWrite_take ((hasRight_quota hq 1).trans hw) hg

theorem reply_take (hh : Heard s p 2 (writeFrame h 0x5A01 0x0A 1 1) e) (ht : Taken e p 2 (writeFrame h 0x5A01 0x0A 1 1))
    (hq : takeQuota e p = some e1) {c : Nat} {x : Dev}
    (hx : doWrite e1 p (writeFrame h 0x5A01 0x0A 1 1) = (x, .code c)) (hports : x.ports = e1.ports) (hlive : x.live = e1.live) :
    Reply (.take p h) s x p (writeFrame h 0x5A01 0x0A 1 1) 2 c [] := by
  have hout : (port e1 p).outq = [] := quota_idle hh hq
  have hport : port x p = port e1 p := congrArg (mget Port.zero · p) hports
  have hkept : e1.live = e.live := by rw [← (takeQuota_spec hq).1]
  exact reply_write hh rfl ((execute_write ht hq e.time.anchor []).trans hx) (by rw [hport, hout]) (fun _ => rfl) (hlive.trans hkept)

theorem taken_not_frozen {f : Frame} (ht : Taken e p 4 f) : frozen e p = false := by
  obtain ⟨-, h | h⟩ := ht
  · exact h
  · simp [allowedFrozen] at h

theorem answers_item (hs : Awake s) (v : BitVec 128) :
    Answers (.itemWrite p h v) s { s with dev := submit s.dev p 4 (itemFrame h v) [] } :=
  ⟨onAwake_next hs (fun d => submit d p 4 (itemFrame h v) []), rfl⟩

/-! An ITEM write that is taken, of a port with the right. -/

section
variable {v : BitVec 128} (hh : Heard s p 4 (itemFrame h v) e) (ht : Taken e p 4 (itemFrame h v)) (hw : hasRight e p 1 = true)
  (hq : takeQuota e p = some e1)
include hh ht hw hq

theorem reply_item_refused (hhost : hostQueue e (port e p).selQueue = false) :
    Reply (.itemWrite p h v) s e1 p (itemFrame h v) 4 3 [] := by
  rw [← quota_selQueue hq, ← quota_hostQueue hq] at hhost
  have hx := (execute_blockWrite ht hq e.time.anchor []).trans (doBlockWrite_item_refused ((hasRight_quota hq 1).trans hw) hhost)
  exact reply_of hh (fun _ => rfl) (by omega) hx (quota_idle hh hq) (fun _ => rfl) (accepted_svc (by omega) _)

/-! The queue is a mailbox or I/O ring that grants the port. -/

variable (hhost : hostQueue e (port e p).selQueue = true) (hg : granted e p (port e p).selQueue = true) (hx : (port e p).xfer = none)
include hhost hg hx

theorem submit_item : submit s.dev p 4 (itemFrame h v) [] =
    askXoff (pumpN [] 2 (itemQueued e1 p (itemFrame h v) (port e p).selQueue v) p) p := by
  have hfrozen : frozen e1 p = false := (quota_frozen hq).trans (taken_not_frozen ht)
  have hsession : (port e1 p).session = true := by
    obtain ⟨b, hb⟩ := quota_port hq
    rw [hb]; exact heard_session hh
  rw [← quota_selQueue hq] at hhost hg ⊢
  rw [← quota_hostQueue hq] at hhost
  rw [← quota_granted hq] at hg
  rw [heard_submit hh (by omega), execute_blockWrite ht hq,
    doBlockWrite_item_taken ((hasRight_quota hq 1).trans hw) hhost hg ((takeQuota_spec hq).2.2.trans hx) hfrozen,
    settleReq_item hh.2.1 (quota_idle hh hq) hsession hfrozen]

theorem reply_item_room (hroom : 0 < qRoom e (port e p).selQueue) :
    Reply (.itemWrite p h v) s (qPush e1 (port e p).selQueue v) p (itemFrame h v) 4 0 [] := by
  have htold := told_item_room (f := itemFrame h v) (v := v) hh.2.1 (quota_idle hh hq) (Nat.lt_of_lt_of_eq hroom (quota_qRoom hq _).symm)
  refine ⟨_, answers_item hh.1 v, ?_⟩
  rw [submit_item hh ht hw hq hhost hg hx, askXoff_idle _ _ (by rw [htold.1])]
  exact htold

theorem item_waits (hfull : qRoom e (port e p).selQueue = 0) : let u := submit s.dev p 4 (itemFrame h v) []
    (port u p).outq = [.item (itemFrame h v) (port e p).selQueue v] ∧ (∀ r, queueOf u r = queueOf e r) ∧ u.links = e.links ∧
      ∀ n, n + 4 ≠ p → uartOf u n = uartOf e n := by
  have hout := quota_idle hh hq
  have hroom : qRoom e1 (port e p).selQueue = 0 := (quota_qRoom hq _).trans hfull
  obtain ⟨hkept, -⟩ := takeQuota_spec hq
  obtain ⟨hwait, hqueues, hlinks, huarts⟩ := itemQueued_full (f := itemFrame h v) (v := v) hout hroom
  rw [submit_item hh ht hw hq hhost hg hx, pumpN_item_full hout hroom]
  refine ⟨hwait, fun r => (hqueues r).trans ?_, hlinks.trans ?_, fun n hn => (huarts n hn).trans ?_⟩
  · rw [← hkept]; rfl
  · rw [← hkept]
  · rw [← hkept]; rfl

end

end

/-! ### The obligation -/

/-- Settles O41: a selector and TAKE are answered at their execution, the other writes by what their application does, and an ITEM
enters its queue or stays on its port. -/
theorem writesOfThreadsAndQueues : Obligations.WritesOfThreadsAndQueues := by
  intro s p h
  refine ⟨?_, ?_, ?_, ?_, ?_, ?_, ?_⟩
  · intro w v e e1 f hh ht hw hq ⟨r, hr, hv⟩
    have hreply := reply_select hh ht hw hq hr hv
    cases w <;> exact hreply
  · intro v t off d f ha y
    have hreply := reply_level ha
    refine ⟨fun hst => ?_, fun hst => ?_⟩
    · rwa [setLevel_other hst] at hreply
    · rwa [setLevel_ready hst] at hreply
  · intro t off d f ha
    have hreply := reply_kick ha
    refine ⟨fun hst hau => ?_, fun hst => ?_⟩
    · rwa [kick_idle hst hau] at hreply
    · rwa [kick_other hst] at hreply
  · intro v c off d f ha
    have hreply := reply_cntValue ha
    refine ⟨counter_of_alone ha, fun hv => ?_, fun hv => ?_⟩
    · rwa [setCnt_pos hv] at hreply
    · rwa [hv, setCnt_zero] at hreply
  · intro q off d f ha
    obtain ⟨h1, h2⟩ := not_or.1 (flushable_of_alone ha)
    exact ⟨h1, h2, reply_flush ha⟩
  · intro e e1 f q hh ht hw hq
    refine ⟨fun hhost => ?_, fun hhost hg hheld => ?_, fun hhost hg hheld => ?_⟩
    · refine reply_take hh ht hq ((doWrite_take_quota hw hq (.inl hhost)).trans (if_neg ?_)) rfl rfl
      rw [hhost]; decide
    · have hdrop : dropHead e1 q = modQueue e1 q (fun x => { x with items := x.items.drop 1, doomed := x.doomed - 1 }) :=
        if_neg (by rw [quota_heldItems hq]; omega)
      rw [← hdrop]
      exact reply_take hh ht hq ((doWrite_take_quota hw hq (.inr hg)).trans (if_pos hhost)) (hdrop ▸ rfl) (hdrop ▸ rfl)
    · have hdrop : dropHead e1 q = e1 := if_pos (by rw [quota_heldItems hq]; exact hheld)
      refine reply_take hh ht hq ((doWrite_take_quota hw hq (.inr hg)).trans ((if_pos hhost).trans ?_)) rfl rfl
      rw [hdrop]
  · intro v e e1 f q hh ht hw hq
    exact ⟨reply_item_refused hh ht hw hq, fun hhost hg hx => ⟨reply_item_room hh ht hw hq hhost hg hx,
      fun hfull => ⟨_, answers_item hh.1 v, item_waits hh ht hw hq hhost hg hx hfull⟩⟩⟩

end Sys2Proof.HostWrites
end

section
/-!
PROOFS. The queue of a part (11 R319-R322): where a strict order puts an item, what the fields of a packed item read as, and one item
that enters its part's queue.
-/
namespace Sys2Proof.EventPosts
open Sys2Proof Sys2Proof.Machine Sys2Proof.Laws

/-! ### Insertion by a strict order -/

/-- Insertion cuts the list before the first element that the new one comes before. -/
theorem insertBy_eq_append {α : Type} (lt : α → α → Bool) (x : α) (l : List α) : ∃ xs ys, l = xs ++ ys ∧
    insertBy lt x l = xs ++ x :: ys ∧ (∀ a ∈ xs, lt x a = false) ∧ ∀ y, ys.head? = some y → lt x y = true := by
  induction l with
  | nil => exact ⟨[], [], rfl, rfl, by simp, by simp⟩
  | cons a r ih =>
    by_cases h : lt x a = true
    · exact ⟨[], a :: r, rfl, if_pos h, by simp, by simp [h]⟩
    · obtain ⟨xs, ys, hr, hins, hbefore, hafter⟩ := ih
      refine ⟨a :: xs, ys, by rw [hr, List.cons_append], ?_, ?_, hafter⟩
      · rw [insertBy, if_neg h, hins, List.cons_append]
      · exact List.forall_mem_cons.2 ⟨by simpa using h, hbefore⟩

theorem numbered_items (x : Queue) : (numbered x).map (·.1) = x.items :=
  List.map_fst_zip (by simp; omega)

/-! ### The fields of an event item (11 R320) -/

section
variable {six cls flags src u0 u1 : Nat} (hc : cls < 16) (hf : flags < 16) (hs : src < 2 ^ 16) (h0 : u0 < 2 ^ 32) (h1 : u1 < 2 ^ 32)
include hc hf hs h0 h1

theorem evPack_toNat : (evPack six cls flags src u0 u1).toNat =
    six % 2 ^ 40 + 2 ^ 40 * (cls * 16 + flags) + 2 ^ 48 * src + 2 ^ 64 * u0 + 2 ^ 96 * u1 := by
  rw [evPack, BitVec.toNat_ofNat]
  exact Nat.mod_eq_of_lt (by omega)

theorem evPack_six : (evPack six cls flags src u0 u1).extractLsb' 0 40 = BitVec.ofNat 40 six := by
  refine BitVec.eq_of_toNat_eq ?_
  rw [BitVec.extractLsb'_toNat, evPack_toNat hc hf hs h0 h1, BitVec.toNat_ofNat, Nat.shiftRight_zero]
  omega

theorem evPack_lateBit : (evPack six cls flags src u0 u1).getLsbD 40 = decide (flags % 2 = 1) := by
  rw [BitVec.getLsbD, Nat.testBit_eq_decide_div_mod_eq, evPack_toNat hc hf hs h0 h1]
  congr 2
  omega

theorem evPack_otherFlags : (evPack six cls flags src u0 u1).extractLsb' 41 3 = BitVec.ofNat 3 (flags / 2) := by
  refine BitVec.eq_of_toNat_eq ?_
  rw [BitVec.extractLsb'_toNat, evPack_toNat hc hf hs h0 h1, BitVec.toNat_ofNat, Nat.shiftRight_eq_div_pow]
  omega

theorem evClass_evPack : evClass (evPack six cls flags src u0 u1) = cls := by
  rw [evClass, evPack_toNat hc hf hs h0 h1]; omega

theorem evSrc_evPack : evSrc (evPack six cls flags src u0 u1) = src := by
  rw [evSrc, evPack_toNat hc hf hs h0 h1]; omega

theorem evU0_evPack : evU0 (evPack six cls flags src u0 u1) = u0 := by
  rw [evU0, evPack_toNat hc hf hs h0 h1]; omega

theorem evU1_evPack : evU1 (evPack six cls flags src u0 u1) = u1 := by
  rw [evU1, evPack_toNat hc hf hs h0 h1]; omega

end

/-- A packet's class fits the field of the item. -/
theorem umpClass_lt {u0 c : Nat} (h : umpClass u0 = some c) : c < 16 := by
  unfold umpClass at h
  dsimp only at h
  repeat' split at h
  all_goals cases h <;> decide

/-! ### One item enters (11 R322) -/

/-- The item as it is stored: a late one with the first sample of the earliest computable block and the mark of a late item. -/
def stamped (d : Dev) (i : EvItem) : BitVec 128 :=
  evPack (if i.six < earliest d then earliest d else i.six) i.cls (b2n (i.six < earliest d)) i.src i.u0 i.u1

/-- The device with the item in its part's queue. -/
def itemEntered (d : Dev) (i : EvItem) : Dev := evInsert d i.part (nextSeq d + i.packet) (stamped d i)

/-- The fields of an item as it is stored. -/
theorem stamped_fields (d : Dev) {i : EvItem} (hc : i.cls < 16) (hs : i.src < 2 ^ 16) (h0 : i.u0 < 2 ^ 32) (h1 : i.u1 < 2 ^ 32) :
    let v := stamped d i
    v.extractLsb' 0 40 = BitVec.ofNat 40 (if i.six < earliest d then earliest d else i.six) ∧
      (v.getLsbD 40 = true ↔ i.six < earliest d) ∧ v.extractLsb' 41 3 = 0 ∧ evClass v = i.cls ∧ evSrc v = i.src ∧
      evU0 v = i.u0 ∧ evU1 v = i.u1 := by
  have hf : b2n (i.six < earliest d) < 16 := by unfold b2n; split <;> omega
  refine ⟨evPack_six hc hf hs h0 h1, ?_, ?_, evClass_evPack hc hf hs h0 h1, evSrc_evPack hc hf hs h0 h1,
    evU0_evPack hc hf hs h0 h1, evU1_evPack hc hf hs h0 h1⟩
  · rw [stamped, evPack_lateBit hc hf hs h0 h1]
    by_cases h : i.six < earliest d <;> simp [h, b2n]
  · rw [stamped, evPack_otherFlags hc hf hs h0 h1]
    by_cases h : i.six < earliest d <;> simp [h, b2n]

/-- The item stands behind the items whose key is not above its own (11 R319). -/
theorem itemEntered_queue (d : Dev) (i : EvItem) : ∃ xs ys, numbered (queueOf d i.part) = xs ++ ys ∧
    (∀ x ∈ xs, evKey d x.1 ≤ evKey d (stamped d i)) ∧ (∀ y, ys.head? = some y → evKey d (stamped d i) < evKey d y.1) ∧
    let l := xs ++ (stamped d i, nextSeq d + i.packet) :: ys
    queueOf (itemEntered d i) i.part = { queueOf d i.part with items := l.map (·.1), seqs := l.map (·.2) } := by
  obtain ⟨xs, ys, hl, hins, hbefore, hafter⟩ := insertBy_eq_append (fun a b => decide (evKey d a.1 < evKey d b.1))
    (stamped d i, nextSeq d + i.packet) (numbered (queueOf d i.part))
  refine ⟨xs, ys, hl, fun x hx => ?_, fun y hy => ?_, ?_⟩
  · simpa using hbefore x hx
  · simpa using hafter y hy
  · rw [itemEntered, evInsert, queueOf_modQueue_self, hins]

theorem itemEntered_other (d : Dev) (i : EvItem) {q : Nat} (h : q ≠ i.part) : queueOf (itemEntered d i) q = queueOf d q :=
  queueOf_modQueue_other _ _ _ _ h

theorem evEnterAll_one_inTime {d : Dev} {i : EvItem} (h : ¬ i.six < earliest d) : evEnterAll d false [i] = itemEntered d i := by
  have hnone : latePackets d [i] = 0 := by simp [latePackets, h]
  exact if_pos hnone

theorem evEnterAll_one_late {d : Dev} {i : EvItem} (h : i.six < earliest d) : evEnterAll d false [i] =
    voidAt (bump (itemEntered d i) 0x0110 0x01) 1 (d.media.block + 3) := by
  have hone : latePackets d [i] = 1 := by simp [latePackets, h, List.eraseDups_cons]
  unfold evEnterAll
  rw [hone]
  rfl

/-- The void mark of a late item is no part of its queue. -/
theorem evEnterAll_one_queue (d : Dev) (i : EvItem) (q : Nat) : queueOf (evEnterAll d false [i]) q = queueOf (itemEntered d i) q := by
  by_cases h : i.six < earliest d
  · rw [evEnterAll_one_late h]; rfl
  · rw [evEnterAll_one_inTime h]

theorem evEnterAll_one_regs (d : Dev) (i : EvItem) (t : Nat) : thr (evEnterAll d false [i]) t = thr d t := by
  by_cases h : i.six < earliest d
  · rw [evEnterAll_one_late h]; rfl
  · rw [evEnterAll_one_inTime h]; rfl

/-- LATE_EVENTS counts a late item once (02 R39). -/
theorem evEnterAll_one_count (d : Dev) (i : EvItem) : oGet (evEnterAll d false [i]) 0x0110 0x01 =
    if i.six < earliest d then min (topOf 0x0110 0x01) (oGet d 0x0110 0x01 + 1) else oGet d 0x0110 0x01 := by
  by_cases h : i.six < earliest d
  · rw [if_pos h, evEnterAll_one_late h, voidAt, oGet_oSet_other _ _ _ _ _ _ _ _ (by decide),
      oGet_oSet_other _ _ _ _ _ _ _ _ (by decide), oGet_bump_self]
    rfl
  · rw [if_neg h, evEnterAll_one_inTime h]; rfl

end Sys2Proof.EventPosts
end

section
/-!
PROOFS. KCALL 8 POST (11 R329, R331): a kernel call that returns a result, the outcomes of a POST outside a block, and O28.
-/
namespace Sys2Proof.EventPosts
open Sys2Proof Sys2Proof.Machine Sys2Proof.Laws Sys2Proof.BlockTransactions

/-! ### A call returns -/

theorem kret_spec (d : Dev) (n t v : Nat) : (thr (kret d n t v) t).regs = (loopStep (gW (thr d t).regs 1 (BitVec.ofNat 32 v))).1 ∧
    OnlyRegs d (kret d n t v) n t := by
  obtain ⟨hregs, honly⟩ := complete_spec (setG1 d t v) n t
  refine ⟨hregs.trans ?_, onlyRegs_trans (onlyRegs_modRegs ..) honly⟩
  rw [setG1, thr_modRegs_self]

/-- Writing a G register and completing stays within the frame of the scalar unit. -/
theorem loopStep_gW (r : Regs) (d : BitVec 5) (v : Word) : let q := (loopStep (gW r d v)).1
    ScalarFrame r q ∧ q.st = r.st ∧ WritesG r q d v := by
  obtain ⟨-, hrest⟩ := loopStep_spec (gW r d v)
  obtain ⟨hg, -, -, hst⟩ := loopStep_kept (gW r d v)
  have hw := gW_rest r d v
  refine ⟨⟨nextPc_loopStep (by rw [hw]), ?_⟩, hst.trans (by rw [hw]), writesG_gW rfl hg⟩
  have hq := congrArg (fun z : Regs => { z with g := r.g, st := r.st, pc := r.pc, rcnt := r.rcnt }) hrest
  exact Eq.trans hq (by rw [hw])

/-- Command i returns v to thread t of core n; the device is otherwise e. -/
def Returns (i : Instr) (s u : State) (e : Dev) (n t v : Nat) : Prop :=
  Answers i s u ∧ OnlyRegs e u.dev n t ∧ ScalarFrame (regsOf s t) (regsOf u t) ∧ (regsOf u t).st = (regsOf s t).st ∧
    WritesG (regsOf s t) (regsOf u t) 1 (BitVec.ofNat 32 v)

theorem returns_of_kret {i : Instr} {s : State} {e : Dev} {n t v : Nat} (h : exec i s = .next { s with dev := kret e n t v })
    (hregs : (thr e t).regs = regsOf s t) : ∃ u, Returns i s u e n t v := by
  obtain ⟨hr, honly⟩ := kret_spec e n t v
  refine ⟨{ s with dev := kret e n t v }, ⟨h, rfl⟩, honly, ?_⟩
  rw [show regsOf { s with dev := kret e n t v } t = _ from hr, hregs]
  exact loopStep_gW (regsOf s t) 1 _

/-- Registers are no part of a queue or of an object. -/
theorem queueOf_onlyRegs {d e : Dev} {n t : Nat} (h : OnlyRegs d e n t) (q : Nat) : queueOf e q = queueOf d q := by
  obtain ⟨hd, -, -, -⟩ := h
  exact (congrArg (fun x : Dev => queueOf x q) hd :)

theorem oGet_onlyRegs {d e : Dev} {n t : Nat} (h : OnlyRegs d e n t) (i b k : Nat) : oGet e i b k = oGet d i b k := by
  obtain ⟨hd, -, -, -⟩ := h
  exact (congrArg (fun x : Dev => oGet x i b k) hd :)

/-! ### POST outside a block -/

/-- The item that a POST of thread t with registers r asks for. -/
def postItem (r : Regs) (t : Nat) : EvItem :=
  let u0 := (gR r 5).toNat
  ⟨(gR r 2).toNat, 0, (gR r 3).toNat + 2 ^ 32 * (gR r 4).toNat, (umpClass u0).getD 0, 0x100 + t, u0,
    if umpMt u0 = 4 then (gR r 6).toNat else 0⟩

/-- The code of its first check that fails, 0 where none does. -/
def itemCode (d : Dev) (i : EvItem) : Nat := postCode d i.part i.six i.u0

theorem postCode_eq (d : Dev) (p six u0 : Nat) : postCode d p six u0 = if mediaState d < 2 then 5 else if 255 < p then 4
    else if umpClass u0 = none then 3 else if partOn d p = false then 2 else if sixNow d + horizon d < six then 1 else 0 := by
  simp [postCode, mediaRuns]

section
variable {s : State} {n t : Nat} (hs : Dispatched s n t) (hx : (coreOf s.dev n).txn = none)
include hs hx

/-- A POST outside a block: the first check that fails, a frozen core, a packet out of the part's ranges, room, or none. -/
theorem exec_kPost : exec (.kPost n) s = .next { s with
    dev :=
      let d := issue s.dev n t
      let i := postItem (regsOf s t) t
      if itemCode s.dev i ≠ 0 then kret d n t (itemCode s.dev i)
      else if coreFrozen s.dev n then kret { d with free := d.free + 1 } n t (Config.freeNat d.free)
      else if rangeTakes s.dev i.part i.u0 i.u1 = false then kret d n t 0
      else if 0 < qRoom s.dev i.part then kret (evEnterAll d false [i]) n t 0
      else stallFor d t i.part (.post i) } := by
  have hout : inAudio (issue s.dev n t) n = false := by
    obtain ⟨htxn, -⟩ := onlyRegs_core (onlyRegs_issue s.dev n t) n
    rw [inAudio, htxn, hx]; rfl
  refine (coreInstr_next hs _).trans ?_
  simp only [hout]
  rfl

variable {i : EvItem} (hi : i = postItem (regsOf s t) t)
include hi

theorem post_fails (hc : itemCode s.dev i ≠ 0) : ∃ u, Returns (.kPost n) s u s.dev n t (itemCode s.dev i) := by
  have he := exec_kPost hs hx
  rw [← hi] at he
  simp only [if_pos hc] at he
  obtain ⟨u, ha, honly, hregs⟩ := returns_of_kret he rfl
  exact ⟨u, ha, onlyRegs_trans (onlyRegs_issue ..) honly, hregs⟩

/-! No check fails. -/

variable (hc : itemCode s.dev i = 0)
include hc

theorem post_frozen (hf : coreFrozen s.dev n = true) :
    ∃ u v, Returns (.kPost n) s u { s.dev with free := u.dev.free } n t v := by
  have he := exec_kPost hs hx
  rw [← hi] at he
  simp only [if_neg (Classical.not_not.2 hc), if_pos hf] at he
  obtain ⟨u, ha, honly, hregs⟩ := returns_of_kret he rfl
  have hfree : u.dev.free = s.dev.free + 1 := by
    obtain ⟨hd, -, -, -⟩ := honly
    exact (congrArg Dev.free hd :)
  refine ⟨u, _, ha, ?_, hregs⟩
  rw [hfree]
  exact onlyRegs_trans (onlyRegs_issue { s.dev with free := s.dev.free + 1 } n t) honly

variable (hf : ¬ coreFrozen s.dev n = true)
include hf

theorem post_outOfRanges (hr : rangeTakes s.dev i.part i.u0 i.u1 = false) : ∃ u, Returns (.kPost n) s u s.dev n t 0 := by
  have he := exec_kPost hs hx
  rw [← hi] at he
  simp only [if_neg (Classical.not_not.2 hc), if_neg hf, if_pos hr] at he
  obtain ⟨u, ha, honly, hregs⟩ := returns_of_kret he rfl
  exact ⟨u, ha, onlyRegs_trans (onlyRegs_issue ..) honly, hregs⟩

/-- With room the item enters: what the queues and LATE_EVENTS then hold. -/
theorem post_enters (hr : rangeTakes s.dev i.part i.u0 i.u1 = true) (hroom : 0 < qRoom s.dev i.part) :
    ∃ u, Answers (.kPost n) s u ∧ WritesG (regsOf s t) (regsOf u t) 1 0 ∧
      (∀ q, queueOf u.dev q = queueOf (itemEntered s.dev i) q) ∧
      oGet u.dev 0x0110 0x01 = if i.six < earliest s.dev
        then min (topOf 0x0110 0x01) (oGet s.dev 0x0110 0x01 + 1) else oGet s.dev 0x0110 0x01 := by
  have he := exec_kPost hs hx
  rw [← hi] at he
  simp only [if_neg (Classical.not_not.2 hc), if_neg hf, hr, Bool.true_eq_false, if_false, if_pos hroom] at he
  obtain ⟨u, ha, honly, -, -, hg⟩ := returns_of_kret he (congrArg Thread.regs (evEnterAll_one_regs ..))
  exact ⟨u, ha, hg, fun q => (queueOf_onlyRegs honly q).trans (evEnterAll_one_queue ..),
    (oGet_onlyRegs honly _ _ _).trans (evEnterAll_one_count ..)⟩

end

/-- A packet that passes the checks has a class. -/
theorem class_of_code {d : Dev} {i : EvItem} (h : itemCode d i = 0) : ∃ c, umpClass i.u0 = some c := by
  rw [itemCode, postCode_eq] at h
  cases hc : umpClass i.u0 with
  | some c => exact ⟨c, rfl⟩
  | none =>
    rw [hc, if_pos rfl] at h
    repeat' split at h
    all_goals cases h

/-- Word 1 of the item is a word, 0 for a packet of one. -/
theorem postItem_u1_lt (r : Regs) (t : Nat) : (postItem r t).u1 < 2 ^ 32 := by
  unfold postItem
  dsimp only
  split
  · exact (gR r 6).isLt
  · decide

/-- Settles O28: the outcomes of a POST by `exec_kPost`, and the place of its item by the cut of the insertion. -/
theorem postEntersOneItem : Obligations.PostEntersOneItem := by
  intro s n t hs ht hx r p six u0 u1 code frozen
  have hcode : itemCode s.dev (postItem r t) = code := postCode_eq s.dev p six u0
  refine ⟨fun hf hc => ?_, fun h => ?_, ?_⟩
  · obtain ⟨u, v, h⟩ := post_frozen hs hx rfl (hcode.trans hc) hf
    exact ⟨u, _, h⟩
  · by_cases hc : code = 0
    · obtain ⟨hf, hr⟩ := h.resolve_left (Classical.not_not.2 hc)
      rw [hc]
      exact post_outOfRanges hs hx rfl (hcode.trans hc) hf hr
    · rw [← hcode]
      exact post_fails hs hx rfl (hcode ▸ hc)
  · intro late stamp hf hc hr hroom
    obtain ⟨c, hclass⟩ := class_of_code (hcode.trans hc)
    have hcls : (postItem r t).cls = c := congrArg (·.getD 0) hclass
    obtain ⟨u, ha, hg, hqueue, hcount⟩ := post_enters hs hx rfl (hcode.trans hc) hf hr hroom
    obtain ⟨xs, ys, hcut, hbefore, hafter, hentered⟩ := itemEntered_queue s.dev (postItem r t)
    obtain ⟨hsix, hlate, hflags, hc', hsrc, hu0, hu1⟩ := stamped_fields s.dev (i := postItem r t) (hcls ▸ umpClass_lt hclass)
      (show 0x100 + t < 2 ^ 16 by omega) (gR r 5).isLt (postItem_u1_lt r t)
    refine ⟨u, stamped s.dev (postItem r t), xs, ys, ha, hsix, hlate, hflags, ?_, hsrc, hu0, hu1, hcut, ?_, hbefore, hafter,
      (hqueue p).trans hentered, fun hl => hcount.trans (if_pos hl), fun hl => hcount.trans (if_neg hl), fun q hq => ?_, hg⟩
    · rw [hc', hcls]; exact hclass
    · rw [← hcut]; exact numbered_items (queueOf s.dev p)
    · exact (hqueue q).trans (itemEntered_other s.dev (postItem r t) hq)

end Sys2Proof.EventPosts
end
